-- ==== Sys2Proof/Word.lean ====
section
/-! DEFINITION. The two word sizes of the block: a byte (00_scope.md R16) and a 32-bit word
(a register, 10_state.md R32; a command word, 30_encoding.md R110). -/

namespace Sys2Proof

/-- A byte: 8 bits, a value in 0..255 (R16). -/
abbrev Byte := BitVec 8

/-- A register's content or a command word: 32 bits (R32, R110). -/
abbrev Word := BitVec 32

/-- The number `n` as a register holds it (R33: every number a rule writes fits). -/
abbrev word (n : Nat) : Word := BitVec.ofNat 32 n

end Sys2Proof
end

