-- ==== Sys2Proof/Syntax.lean ====
section
/-! DEFINITION. The thirteen commands (30_encoding.md R115), one constructor per row of the
opcode map. -/

namespace Sys2Proof

/-- A command with its operands as 30_encoding.md R112 extracts them: `imm8` and `imm8b` are bytes,
`imm24` is an unsigned number (its range is `Instr.wellFormed`; log 12). -/
inductive Instr where
  /-- 0x00, format Z: do nothing (R144). -/
  | nop
  /-- 0x01, format BB: count bit differences of `a` and `b` (R141). -/
  | cnt (a b : Byte)
  /-- 0x02, format Z: locate the sync pattern in the receive buffer (R155). -/
  | find
  /-- 0x03, format L: parse the frame fields at offset `off` of the receive buffer (R174). -/
  | parse (off : Nat)
  /-- 0x04, format Z: name the payload of the held frame (R179). -/
  | extract
  /-- 0x05, format Z: build a frame from the staged payload (R168). -/
  | build
  /-- 0x06, format L: pull one frame out of the receive buffer, `m` being `min_frame_size` (R205). -/
  | recover (m : Nat)
  /-- 0x08, format B: append the received byte `b` (R236). -/
  | rxpush (b : Byte)
  /-- 0x09, format Z: adopt the remainder of the last RECOVER (R240). -/
  | rxaccept
  /-- 0x0A, format L: discard up to `n` bytes from the front (R243). -/
  | rxdrop (n : Nat)
  /-- 0x0B, format Z: empty the receive buffer (R246). -/
  | rxclr
  /-- 0x0C, format B: append `b` to the staged payload (R249). -/
  | txpush (b : Byte)
  /-- 0x0D, format Z: empty the staged payload (R252). -/
  | txclr
deriving DecidableEq, Repr

end Sys2Proof
end

