-- ==== Sys2Proof/WellFormed.lean ====
section
/-! DEFINITION. Which commands a command word can carry: an `imm24` is a number 0..16777215
(30_encoding.md R112). Bytes are in range by their type. -/

namespace Sys2Proof

/-- Every operand fits the field of its format (R111, R112). -/
def Instr.wellFormed : Instr → Bool
  | .nop => true
  | .cnt _ _ => true
  | .find => true
  | .parse off => decide (off < 16777216)
  | .extract => true
  | .build => true
  | .recover m => decide (m < 16777216)
  | .rxpush _ => true
  | .rxaccept => true
  | .rxdrop n => decide (n < 16777216)
  | .rxclr => true
  | .txpush _ => true
  | .txclr => true

end Sys2Proof
end

