-- ==== Sys2Proof/Decode.lean ====
section
/-! DEFINITION. The command word (30_encoding.md section 2): decoding, total on all 2^32 words and
rejecting by name, and the encoder. -/

namespace Sys2Proof

/-- The four formats of R111. -/
inductive Format where
  /-- no immediate: bits 31:8 are zero -/
  | z
  /-- imm8 in bits 15:8: bits 31:16 are zero -/
  | b
  /-- imm8 in bits 15:8, imm8b in bits 23:16: bits 31:24 are zero -/
  | bb
  /-- imm24 in bits 31:8 -/
  | l
deriving DecidableEq, Repr

/-- Why a word is no command (R113). Both raise IllegalCommand. -/
inductive IllegalWord where
  /-- R116: opcode 0x07 or 0x0E to 0xFF, no row in the opcode map -/
  | reservedOpcode
  /-- R113: a bit that the row's format marks "0" is 1 -/
  | mustBeZeroSet
deriving DecidableEq, Repr

/-- The bits that R111 marks "0" in a format. -/
def Format.mustBeZero : Format → Word
  | .z => 0xFFFFFF00
  | .b => 0xFFFF0000
  | .bb => 0xFF000000
  | .l => 0x00000000

/-- The mask of a format (R117): its must-be-zero bits and the opcode. -/
def Format.mask : Format → Word
  | .z => 0xFFFFFFFF
  | .b => 0xFFFF00FF
  | .bb => 0xFF0000FF
  | .l => 0x000000FF

/-- `w[7:0]` (R110). -/
def opcodeField (w : Word) : Nat := (w.extractLsb' 0 8).toNat

/-- `imm8 = w[15:8]` (R112). -/
def imm8 (w : Word) : Byte := w.extractLsb' 8 8

/-- `imm8b = w[23:16]` (R112). -/
def imm8b (w : Word) : Byte := w.extractLsb' 16 8

/-- `imm24 = w[31:8]`, an unsigned number (R112). -/
def imm24 (w : Word) : Nat := (w.extractLsb' 8 24).toNat

/-- The row of the opcode map (R115) for opcode `op`, if there is one: its format, and its command
with the immediates of `w`. -/
def opcodeRow (op : Nat) (w : Word) : Option (Format × Instr) :=
  match op with
  | 0x00 => some (.z, .nop)
  | 0x01 => some (.bb, .cnt (imm8 w) (imm8b w))
  | 0x02 => some (.z, .find)
  | 0x03 => some (.l, .parse (imm24 w))
  | 0x04 => some (.z, .extract)
  | 0x05 => some (.z, .build)
  | 0x06 => some (.l, .recover (imm24 w))
  | 0x08 => some (.b, .rxpush (imm8 w))
  | 0x09 => some (.z, .rxaccept)
  | 0x0A => some (.l, .rxdrop (imm24 w))
  | 0x0B => some (.z, .rxclr)
  | 0x0C => some (.b, .txpush (imm8 w))
  | 0x0D => some (.z, .txclr)
  | _ => none

/-- Decoding (R113): read the opcode, take its row, check the must-be-zero bits. -/
def decode (w : Word) : Except IllegalWord Instr :=
  match opcodeRow (opcodeField w) w with
  | none => .error .reservedOpcode
  | some (f, i) => if w &&& f.mustBeZero = 0 then .ok i else .error .mustBeZeroSet

/-- The opcode of a command (R115). -/
def Instr.opcode : Instr → Nat
  | .nop => 0x00
  | .cnt _ _ => 0x01
  | .find => 0x02
  | .parse _ => 0x03
  | .extract => 0x04
  | .build => 0x05
  | .recover _ => 0x06
  | .rxpush _ => 0x08
  | .rxaccept => 0x09
  | .rxdrop _ => 0x0A
  | .rxclr => 0x0B
  | .txpush _ => 0x0C
  | .txclr => 0x0D

/-- The format of a command (R111). -/
def Instr.format : Instr → Format
  | .nop => .z
  | .cnt _ _ => .bb
  | .find => .z
  | .parse _ => .l
  | .extract => .z
  | .build => .z
  | .recover _ => .l
  | .rxpush _ => .b
  | .rxaccept => .z
  | .rxdrop _ => .l
  | .rxclr => .z
  | .txpush _ => .b
  | .txclr => .z

/-- The immediates of a command as they stand above the opcode (R112):
`imm8 + 256*imm8b` in formats Z, B, BB (absent immediates 0), `imm24` in format L. -/
def Instr.immediates : Instr → Nat
  | .nop => 0
  | .cnt a b => a.toNat + 256 * b.toNat
  | .find => 0
  | .parse off => off
  | .extract => 0
  | .build => 0
  | .recover m => m
  | .rxpush b => b.toNat
  | .rxaccept => 0
  | .rxdrop n => n
  | .rxclr => 0
  | .txpush b => b.toNat
  | .txclr => 0

/-- The word of a well-formed command (R112): the opcode plus 256 times what stands above it. -/
def encode (i : Instr) : Word := word (i.opcode + 256 * i.immediates)

/-- What the decoder reads from the `nbits` bits of `w`. A command is one 32-bit word, and a
command word is a number, stored nowhere (R76, R86, R110); bits above `nbits` are 0. -/
def decodeTableWord (nbits w : Nat) : Option Instr :=
  (decode (word (w % 2 ^ nbits))).toOption

end Sys2Proof
end

