-- ==== Sys2Proof/Config.lean ====
section
/-! DEFINITION. The configuration of one instance (00_scope.md section 3), and the free value that
an unspecified memory byte reads as (20_memory.md R80). -/

namespace Sys2Proof

/-- The parameters of an instance, with their legal ranges (00_scope.md R9, R11, R13, R14).
SYNC_LEN is the number of bytes of `sync`, so the two cannot differ. A configuration outside the
ranges cannot be written down: 93_implementation_defined.md U5 asks a model to refuse it by giving
its configuration type the ranges as preconditions (DESIGN CHOICE, log 1: safe). -/
structure Config where
  /-- `SYNC[0..SYNC_LEN-1]`, the sync pattern (R10). -/
  sync : List Byte
  /-- `MAX_BIT_ERRORS`, written E: one number, used for the sync match and for the checksum (R11). -/
  maxBitErrors : Nat
  /-- `RX_CAP`: capacity of RXBUF in bytes (R13). -/
  rxCap : Nat
  /-- `TXP_CAP`: capacity of TXPAY in bytes (R14). -/
  txpCap : Nat
  /-- R9: 1 <= SYNC_LEN. -/
  syncNonempty : 1 ≤ sync.length := by decide
  /-- R9: SYNC_LEN <= 255. -/
  syncBounded : sync.length ≤ 255 := by decide
  /-- R11: MAX_BIT_ERRORS < 2^32. -/
  maxBitErrorsBounded : maxBitErrors < 4294967296 := by decide
  /-- R13: the smallest frame fits in RXBUF. -/
  rxCapHoldsFrame : sync.length + 3 ≤ rxCap := by decide
  /-- R13: RX_CAP <= 2^24 - 1. -/
  rxCapBounded : rxCap ≤ 16777215 := by decide
  /-- R14: 1 <= TXP_CAP. -/
  txpCapPositive : 1 ≤ txpCap := by decide
  /-- R14: TXP_CAP <= 2^24 - 1. -/
  txpCapBounded : txpCap ≤ 16777215 := by decide
deriving DecidableEq, Repr

/-- `SYNC_LEN`, written N (R9). -/
def Config.syncLen (c : Config) : Nat := c.sync.length

/-- `TXF_CAP = SYNC_LEN + 65538`: the size of the largest frame (R14, R20). -/
def Config.txfCap (c : Config) : Nat := c.syncLen + 65538

/-- The reference configuration (R9, R10, R13, R14) with tolerance `e`, which has no default and is
an argument of the model (R11, 91_not_in_source.md N4). -/
def Config.reference (e : Nat) (h : e < 4294967296 := by decide) : Config where
  sync := [0xAA, 0xAA]
  maxBitErrors := e
  rxCap := 131072
  txpCap := 65536
  maxBitErrorsBounded := h

/-- FREE VALUE (log 4): the byte that address `addr` of space number `space` reads as while nothing
gives it a value (20_memory.md R80: "an unspecified byte"). `epoch` counts the commands and resets
taken so far, so that the value is the same when a read is repeated with no command between (R79)
and nothing relates it across commands. It has no body: nothing can be proved of its value. It has no
argument for the instance, so two instances at one epoch read one byte at one place (DESIGN CHOICE,
log 20: unsafe). -/
opaque Config.unspecifiedByte (epoch space addr : Nat) : Byte

end Sys2Proof
end

