-- ==== Sys2Proof/Machine/State.lean ====
section
/-! DEFINITION. The state of one instance (10_state.md R30), the reasons a step can stop, and the
machine right after reset (10_state.md R49). -/

namespace Sys2Proof.Machine

/-- Why a step stops with a fault. -/
inductive Fault where
  /-- Raised by RXPUSH and TXPUSH when the length register already exceeds the memory's capacity, so
  that the pushed byte's address `addr` does not exist in address space `space` (20_memory.md R70).
  No run reaches such a state (10_state.md R42 (a)). Safe: the model stops where the spec gives no
  such byte (DESIGN CHOICE, log 8). -/
  | noSuchByte (space addr : Nat)
deriving DecidableEq, Repr

/-- Why a step refuses. -/
inductive Refusal where
  /-- Raised by an arm of `exec` whose command has no meaning yet; no arm raises it. Safe. -/
  | notModelled (mnemonic : String)
deriving DecidableEq, Repr

/-- ERR (STATUS bits 3:0): the error of the last command (60_exceptions.md R276). Codes 7 to 15 are
never produced (U6; log 11). -/
inductive Err where
  | none
  | payloadTooLarge
  | insufficientData
  | nullFrame
  | illegalCommand
  | rxOverflow
  | txOverflow
deriving DecidableEq, Repr

/-- OUTCOME (STATUS bits 6:4): the outcome of the last RECOVER (30_encoding.md R120). Codes 6 and 7
are never produced (U6; log 11). -/
inductive RecoverOutcome where
  | none
  | tooShort
  | noSync
  | incomplete
  | invalid
  | recovered
deriving DecidableEq, Repr

/-- A byte memory: the addresses that hold a value, with the value, in rising order of address. An
address that is not listed holds no value (R49, R80; log 3). -/
structure Memory where
  cells : List Host.Cell
deriving DecidableEq, Repr

/-- A move of the host (20_memory.md R83), or the reset event between two moves
(70_reset_and_hazards.md R310). -/
inductive HostMove where
  /-- `Issue(w)`: issue a command word. -/
  | issue (w : Word)
  /-- `RegRead(n)`, 0 <= n <= 31. -/
  | regRead (n : BitVec 5)
  /-- `MemRead(space, addr, 1)`. -/
  | memRead (space addr : Nat)
  /-- Reset. -/
  | reset
deriving DecidableEq, Repr

/-- What a host read returns to the host. -/
inductive Answer where
  | word (w : Word)
  | byte (b : Byte)
deriving DecidableEq, Repr

/-- The state of one instance: the registers and flags of 10_state.md R32 and R34, the three writable
memories of R43, the configuration the instance was made with (R31; not state in the spec, written
by nothing: log 1), and three fields of the model (log 4, log 5, log 6). -/
structure State where
  /-- The instance's configuration (registers 15 to 18 and SYNCROM are views of it). -/
  cfg : Config
  /-- STATUS bits 3:0 (R34). -/
  err : Err
  /-- STATUS bits 6:4 (R34). -/
  outcome : RecoverOutcome
  /-- STATUS bit 8: the last FIND or RECOVER located a sync match (R34). -/
  found : Bool
  /-- STATUS bit 9: a recovered frame is held (R34). -/
  frmValid : Bool
  /-- Register 1: result of the last CNT command. -/
  cnt : Word
  /-- Register 2: index of the last sync match. -/
  idx : Word
  /-- Register 3: last parsed length field. -/
  length : Word
  /-- Register 4: last extracted checksum byte. -/
  csumRx : Word
  /-- Register 5: last computed checksum. -/
  csumCalc : Word
  /-- Register 6: bit differences between the two. -/
  csumDist : Word
  /-- Register 7: offset in RXBUF of the held frame. -/
  frmOff : Word
  /-- Register 8: length of the held frame. -/
  frmLen : Word
  /-- Register 9: offset in RXBUF where the remainder starts. -/
  remOff : Word
  /-- Register 10: offset in RXBUF of the last payload span. -/
  payOff : Word
  /-- Register 11: length of the last payload span. -/
  payLen : Word
  /-- Register 12: number of valid bytes in RXBUF. -/
  rxLen : Word
  /-- Register 13: number of valid bytes in TXPAY. -/
  txpLen : Word
  /-- Register 14: number of valid bytes in TXFRM. -/
  txfLen : Word
  /-- Address space 0: the receive buffer. -/
  rxbuf : Memory
  /-- Address space 1: the staged payload. -/
  txpay : Memory
  /-- Address space 2: the built frame. -/
  txfrm : Memory
  /-- MODEL'S OWN: the host's moves not yet made (log 5). -/
  pending : List HostMove
  /-- MODEL'S OWN: what the last host read returned (log 6). -/
  answer : Option Answer
  /-- MODEL'S OWN: commands and resets taken so far, the argument of the free value (log 4). -/
  epoch : Nat
deriving DecidableEq, Repr

/-- An instance with configuration `c` right after reset (R49, R310): every register 0 to 14 reads 0
and no memory byte has a value. The model's own fields are empty, empty and 0. -/
def State.resetOf (c : Config) : State where
  cfg := c
  err := .none
  outcome := .none
  found := false
  frmValid := false
  cnt := 0
  idx := 0
  length := 0
  csumRx := 0
  csumCalc := 0
  csumDist := 0
  frmOff := 0
  frmLen := 0
  remOff := 0
  payOff := 0
  payLen := 0
  rxLen := 0
  txpLen := 0
  txfLen := 0
  rxbuf := ⟨[]⟩
  txpay := ⟨[]⟩
  txfrm := ⟨[]⟩
  pending := []
  answer := Option.none
  epoch := 0

/-- The reference instance right after reset. The spec gives MAX_BIT_ERRORS no default; here it is 0
(DESIGN CHOICE, log 2: unsafe); `State.resetOf` takes any configuration. -/
def State.reset : State := State.resetOf (Config.reference 0)

end Sys2Proof.Machine
end

