-- ==== Sys2Proof/Machine/Memory.lean ====
section
/-! DEFINITION. Byte memories in one canonical form (20_memory.md sections 1 and 3; log 3). -/

namespace Sys2Proof.Machine

/-- The canonical form: addresses strictly rising. An unlisted address holds no value, so no entry
can equal what an unlisted address reads as. -/
abbrev Memory.wf (m : Memory) : Prop := m.cells.Pairwise fun x y => x.1 < y.1

/-- The memory in which no byte has a value: any memory after reset (R49), RXBUF after RXCLR (R246),
TXPAY after TXCLR (R252). -/
def Memory.empty : Memory := ⟨[]⟩

/-- The byte at address `a`, if it holds a value. -/
def Memory.read (m : Memory) (a : Nat) : Option Byte := m.cells.lookup a

/-- `cells` with the byte at `a` set to `b`, in rising order of address. -/
def setCell (a : Nat) (b : Byte) : List Host.Cell → List Host.Cell
  | [] => [(a, b)]
  | (x, y) :: rest =>
    if a < x then (a, b) :: (x, y) :: rest
    else if a = x then (a, b) :: rest
    else (x, y) :: setCell a b rest

/-- `MemWrite(space, a, 1, b)` (00_scope.md R19). -/
def Memory.write (m : Memory) (a : Nat) (b : Byte) : Memory := ⟨setCell a b m.cells⟩

/-- `MemWrite` of each byte of a sequence at `base`, `base + 1`, and so on. -/
def Memory.writeBytes (m : Memory) (base : Nat) : List Byte → Memory
  | [] => m
  | b :: bs => (m.write base b).writeBytes (base + 1) bs

/-- The cells of a byte sequence that starts at address `base`. -/
def cellsFrom (base : Nat) : List Byte → List Host.Cell
  | [] => []
  | b :: bs => (base, b) :: cellsFrom (base + 1) bs

/-- The memory whose bytes 0, 1, ... are the sequence `bs` and in which no other byte has a value. -/
def Memory.ofBytes (bs : List Byte) : Memory := ⟨cellsFrom 0 bs⟩

end Sys2Proof.Machine
end

