-- ==== Sys2Proof/Machine/Operands.lean ====
section
/-! DEFINITION. What the commands work on: the address spaces and the byte sequences RX, TXP and TXF
(00_scope.md R19, 20_memory.md R70 to R73), views (R81), and the byte order of the length field
(R75). -/

namespace Sys2Proof.Machine

/-- The four address spaces (R70). -/
inductive Space where
  | rxbuf
  | txpay
  | txfrm
  | syncrom
deriving DecidableEq, Repr

/-- The number by which a host read names a space (R70). -/
def Space.number : Space → Nat
  | .rxbuf => 0
  | .txpay => 1
  | .txfrm => 2
  | .syncrom => 3

/-- The space a host read names; there is none above 3 (R70, R80). -/
def spaceOfNumber (n : Nat) : Option Space :=
  match n with
  | 0 => some .rxbuf
  | 1 => some .txpay
  | 2 => some .txfrm
  | 3 => some .syncrom
  | _ => none

/-- The number of bytes of a space (R70). -/
def State.spaceSize (s : State) : Space → Nat
  | .rxbuf => s.cfg.rxCap
  | .txpay => s.cfg.txpCap
  | .txfrm => s.cfg.txfCap
  | .syncrom => s.cfg.syncLen

/-- The length of the valid prefix of a space (R70). -/
def State.validLen (s : State) : Space → Nat
  | .rxbuf => s.rxLen.toNat
  | .txpay => s.txpLen.toNat
  | .txfrm => s.txfLen.toNat
  | .syncrom => s.cfg.syncLen

/-- FREE VALUE (log 4): what a byte that holds no value reads as (R80). It does not depend on which
of several instances is read (DESIGN CHOICE, log 20). -/
def State.unspecified (s : State) (space addr : Nat) : Byte :=
  Config.unspecifiedByte s.epoch space addr

/-- The byte held at an address of a space, if one is: SYNCROM holds the sync pattern (R73). -/
def State.held (s : State) : Space → Nat → Option Byte
  | .rxbuf, a => s.rxbuf.read a
  | .txpay, a => s.txpay.read a
  | .txfrm, a => s.txfrm.read a
  | .syncrom, a => s.cfg.sync[a]?

/-- `MemRead(space, a, 1)` as a command makes it (00_scope.md R19). -/
def State.readByte (s : State) (sp : Space) (a : Nat) : Byte :=
  (s.held sp a).getD (s.unspecified sp.number a)

/-- The first `n` bytes of a space, in order. -/
def State.bytes (s : State) (sp : Space) (n : Nat) : List Byte :=
  (List.range n).map (s.readByte sp)

/-- `RX = RXBUF[0..RX_LEN)` (R19, R71). -/
def State.rx (s : State) : List Byte := s.bytes .rxbuf s.rxLen.toNat

/-- `TXP = TXPAY[0..TXP_LEN)` (R19, R72). -/
def State.txp (s : State) : List Byte := s.bytes .txpay s.txpLen.toNat

/-- `TXF = TXFRM[0..TXF_LEN)` (R19, R72). -/
def State.txf (s : State) : List Byte := s.bytes .txfrm s.txfLen.toNat

/-- The view `buf[off..len(buf))`, empty when `off` is past the end (R81, 42_frame_codec.md R174). -/
abbrev view (buf : List Byte) (off : Nat) : List Byte := buf.drop off

/-- `be16(h, l) = 256*h + l`: the byte at the lower index is the more significant (R18, R75). -/
def be16 (h l : Byte) : Nat := 256 * h.toNat + l.toNat

/-- `[L div 256, L mod 256]`: the length field as build emits it (R75). -/
def lengthField (len : Nat) : List Byte := [BitVec.ofNat 8 (len / 256), BitVec.ofNat 8 (len % 256)]

end Sys2Proof.Machine
end

