-- ==== Sys2Proof/Machine/Ops.lean ====
section
/-! DEFINITION. The shared operations of the commands: raising an error and ending normally
(60_exceptions.md R277, R278), invalidating slices (10_state.md R41), removing bytes from the front
of the receive buffer (20_memory.md R82). -/

namespace Sys2Proof.Machine

/-- What a command answers: a next state, or the model's fault (log 8). -/
abbrev Result := Host.Outcome State Fault Refusal

/-- `raise X`: the command ends at once, ERR holds the error's code and nothing else changes (R277).
There is no trap entry, no saved state, no vector and no return (R291, R292). -/
def State.raise (s : State) (e : Err) : State := { s with err := e }

/-- `done`: the command ends normally with ERR = 0 (00_scope.md R19, R278). -/
def State.done (s : State) : State := { s with err := .none }

/-- Slice invalidation (R41): every register that holds an offset into RXBUF is written 0. -/
def State.invalidateSlices (s : State) : State :=
  { s with
    found := false
    idx := 0
    frmValid := false
    frmOff := 0
    frmLen := 0
    remOff := 0
    payOff := 0
    payLen := 0 }

/-- Remove the first `k` bytes of RXBUF (R82): every later byte moves to a lower index, all reads
made before any write, and the bytes at or above the new RX_LEN are left without a value. -/
def State.removeFront (s : State) (k : Nat) : State :=
  { s with
    rxbuf := Memory.ofBytes (s.rx.drop k)
    rxLen := word (s.rxLen.toNat - k) }

/-- The push of one byte at the end of a memory of `cap` bytes that holds `len` (R236, R249). -/
inductive Push where
  /-- the memory is full: the byte is not stored -/
  | full
  /-- the byte's address does not exist (log 8) -/
  | outside
  /-- the memory with the byte stored, and the new length -/
  | stored (m : Memory) (len : Word)
deriving DecidableEq, Repr

/-- Append `b` to the memory `m` of `cap` bytes, of which the first `len` are valid (R236, R249). -/
def pushByte (m : Memory) (cap : Nat) (len : Word) (b : Byte) : Push :=
  if len.toNat = cap then .full
  else if cap < len.toNat then .outside
  else .stored (m.write len.toNat b) (len + 1)

end Sys2Proof.Machine
end

