-- ==== Sys2Proof/Machine/BitErrorCounter.lean ====
section
/-! DEFINITION. BitErrorCounter: CNT and NOP (40_bit_error_counter.md). -/

namespace Sys2Proof.Machine

/-- The number of bits equal to 1 among the 8 bits of a byte (00_scope.md R18). -/
def popcount8 (v : Byte) : Nat := ((List.range 8).map fun k => (v.getLsbD k).toNat).sum

/-- `count_bit_differences` (R140). -/
def cnt (a b : Byte) : Nat := popcount8 (a ^^^ b)

/-- NOP (R144): writes ERR only. -/
def execNop (s : State) : Result := .next s.done

/-- CNT a, b (R141). -/
def execCnt (a b : Byte) (s : State) : Result := .next { s with cnt := word (cnt a b) }.done

end Sys2Proof.Machine
end

