-- ==== Sys2Proof/Machine/BufferCommands.lean ====
section
/-! DEFINITION. The buffer commands: RXPUSH, RXACCEPT, RXDROP, RXCLR, TXPUSH, TXCLR
(44_buffer_commands.md). None of them looks at the content of the bytes it moves (R235). -/

namespace Sys2Proof.Machine

/-- RXPUSH b (R236): no other byte moves and no offset register is invalidated. -/
def execRxpush (b : Byte) (s : State) : Result :=
  match pushByte s.rxbuf s.cfg.rxCap s.rxLen b with
  | .full => .next (s.raise .rxOverflow)
  | .outside => .fault (.noSuchByte Space.rxbuf.number s.rxLen.toNat)
  | .stored m len => .next { s with rxbuf := m, rxLen := len }.done

/-- RXACCEPT (R240): remove REM_OFF bytes and invalidate slices, even when there is nothing to
remove. REM_OFF > RX_LEN, which no run reaches (R42), empties the buffer (DESIGN CHOICE, log 9). -/
def execRxaccept (s : State) : Result :=
  .next (s.removeFront s.remOff.toNat).invalidateSlices.done

/-- RXDROP n (R243): asking for more bytes than there are empties the buffer. -/
def execRxdrop (n : Nat) (s : State) : Result :=
  .next (s.removeFront (min n s.rxLen.toNat)).invalidateSlices.done

/-- RXCLR (R246): the bytes of RXBUF become unspecified. -/
def execRxclr (s : State) : Result :=
  .next { s with rxbuf := Memory.empty, rxLen := 0 }.invalidateSlices.done

/-- TXPUSH b (R249): a frame already built stays as built. -/
def execTxpush (b : Byte) (s : State) : Result :=
  match pushByte s.txpay s.cfg.txpCap s.txpLen b with
  | .full => .next (s.raise .txOverflow)
  | .outside => .fault (.noSuchByte Space.txpay.number s.txpLen.toNat)
  | .stored m len => .next { s with txpay := m, txpLen := len }.done

/-- TXCLR (R252): the bytes of TXPAY become unspecified; TXFRM and TXF_LEN keep the last frame. -/
def execTxclr (s : State) : Result :=
  .next { s with txpay := Memory.empty, txpLen := 0 }.done

end Sys2Proof.Machine
end

