-- ==== Sys2Proof/Machine/FrameCodec.lean ====
section
/-! DEFINITION. FrameCodec: BUILD, PARSE, EXTRACT (42_frame_codec.md; the layout is 30_encoding.md
R100 to R102). -/

namespace Sys2Proof.Machine

/-- `csum(p)`: the sum of all payload bytes, modulo 256 (R102). -/
def csum (p : List Byte) : Byte := BitVec.ofNat 8 ((p.map BitVec.toNat).sum)

/-- `total_size = sync_len + 2 + length + 1` (R101). -/
def totalSize (syncLen len : Nat) : Nat := syncLen + 2 + len + 1

/-- `build(payload)` (R165): sync, big-endian length, payload, checksum. -/
def build (sync p : List Byte) : Except Err (List Byte) :=
  if 65535 < p.length then .error .payloadTooLarge
  else .ok (sync ++ lengthField p.length ++ p ++ [csum p])

/-- What parse returns: the length field, the payload span and the checksum byte (R171). -/
structure ParsedFrame where
  length : Nat
  span : List Byte
  checksum : Byte
deriving DecidableEq, Repr

/-- The length field of a view that holds a whole header, at indices N and N+1 (R101, R171). -/
def headerLength (v : List Byte) (syncLen : Nat) : Nat :=
  be16 (v.getD syncLen 0) (v.getD (syncLen + 1) 0)

/-- `parse(v, N)` (R171): the header bound first (R173), then the total size. No byte outside `v` is
read, so the default of `getD` is never met. -/
def parse (v : List Byte) (syncLen : Nat) : Except Err ParsedFrame :=
  if v.length < syncLen + 2 then .error .insufficientData
  else
    let len := headerLength v syncLen
    let total := totalSize syncLen len
    if v.length < total then .error .insufficientData
    else .ok
      { length := len
        span := (v.drop (syncLen + 2)).take len
        checksum := v.getD (total - 1) 0 }

/-- `extract_payload(f) = f[N+2 .. F-1)`, by position; it does not reread the length field (R177). The
rule is for F >= N + 3; for a shorter sequence, which is no frame, the answer here is the empty payload
(DESIGN CHOICE, log 19). -/
def extractPayload (syncLen : Nat) : Option (List Byte) → Except Err (List Byte)
  | none => .error .nullFrame
  | some f => .ok ((f.take (f.length - 1)).drop (syncLen + 2))

/-- BUILD (R168): writes TXFRM[0..N+3+L) and TXF_LEN; the staged payload is read, not written.
Bytes of TXFRM past the frame keep what they hold, and no read shows them (R80, U2; log 3). -/
def execBuild (s : State) : Result :=
  match build s.cfg.sync s.txp with
  | .error e => .next (s.raise e)
  | .ok f => .next { s with txfrm := s.txfrm.writeBytes 0 f, txfLen := word f.length }.done

/-- PARSE off (R174). It checks neither the sync bytes nor the checksum (R172). -/
def execParse (off : Nat) (s : State) : Result :=
  match parse (view s.rx off) s.cfg.syncLen with
  | .error e => .next (s.raise e)
  | .ok p =>
    .next { s with
      length := word p.length
      payOff := word (off + s.cfg.syncLen + 2)
      payLen := word p.length
      csumRx := word p.checksum.toNat }.done

/-- EXTRACT (R179). A held frame has FRM_LEN >= SYNC_LEN + 3 in every reachable state (R42); in a
state no run reaches the subtraction stops at 0 (DESIGN CHOICE, log 10). -/
def execExtract (s : State) : Result :=
  if s.frmValid then
    .next { s with
      payOff := word (s.frmOff.toNat + s.cfg.syncLen + 2)
      payLen := word (s.frmLen.toNat - s.cfg.syncLen - 3) }.done
  else .next (s.raise .nullFrame)

end Sys2Proof.Machine
end

