-- ==== Sys2Proof/Machine/PatternLocator.lean ====
section
/-! DEFINITION. PatternLocator: FIND (41_pattern_locator.md). -/

namespace Sys2Proof.Machine

/-- `err(buf, pat, i)`: the bit errors of the window at `i`, in total over the window (R150). -/
def windowErr (buf pat : List Byte) (i : Nat) : Nat := (List.zipWith cnt (buf.drop i) pat).sum

/-- `find(buf, pat, E)`: the first index whose window is within the budget (R150 to R153). -/
def find (buf pat : List Byte) (e : Nat) : Option Nat :=
  if buf.length < pat.length then none
  else (List.range (buf.length - pat.length + 1)).find? fun i => decide (windowErr buf pat i ≤ e)

/-- The comparison of one window with the early abort of R154: the running total `t` is checked after
each byte. The block may work so; the result is that of `windowErr`. -/
def windowMatchesEarly (e : Nat) : Nat → List Byte → List Byte → Bool
  | t, b :: bs, p :: ps => if e < t + cnt b p then false else windowMatchesEarly e (t + cnt b p) bs ps
  | t, _, _ => decide (t ≤ e)

/-- FIND (R155): "not found" is a result, not an error. -/
def execFind (s : State) : Result :=
  match find s.rx s.cfg.sync s.cfg.maxBitErrors with
  | none => .next { s with found := false, idx := 0 }.done
  | some i => .next { s with found := true, idx := word i }.done

end Sys2Proof.Machine
end

