-- ==== Sys2Proof/Machine/FrameSynchronizer.lean ====
section
/-! DEFINITION. FrameSynchronizer: RECOVER (43_frame_synchronizer.md sections 1 to 3). -/

namespace Sys2Proof.Machine

/-- The exits of recover (R195), with what R205's table reports of each: candidate index `i`, length
field, checksum received and computed, and their distance. -/
inductive RecoverExit where
  /-- step (1): the buffer is shorter than m (R196) -/
  | tooShort
  /-- step (2): no candidate (R197) -/
  | noSync
  /-- step (4): the sliced buffer is shorter than m (R198) -/
  | tooShortSliced (i : Nat)
  /-- step (5): the sliced buffer does not hold the length field (R199) -/
  | incompleteHeader (i : Nat)
  /-- step (6): the sliced buffer is shorter than the frame it declares (R199) -/
  | incompleteFrame (i len : Nat)
  /-- step (8): the checksum is out of tolerance (R202) -/
  | invalid (i len : Nat) (received computed : Byte) (d : Nat)
  /-- step (8): the checksum is within tolerance (R204) -/
  | recovered (i len : Nat) (received computed : Byte) (d : Nat)
deriving DecidableEq, Repr

/-- `recover(buf, m)` (R195), as the exit it takes; the steps are taken in this order (R210). -/
def recoverExit (c : Config) (buf : List Byte) (m : Nat) : RecoverExit :=
  if buf.length < m then .tooShort
  else match find buf c.sync c.maxBitErrors with
    | none => .noSync
    | some i =>
      let s := view buf i
      if s.length < m then .tooShortSliced i
      else if s.length < c.syncLen + 2 then .incompleteHeader i
      else
        let len := headerLength s c.syncLen
        let total := totalSize c.syncLen len
        if s.length < total then .incompleteFrame i len
        else
          let f := s.take total
          let computed := csum ((f.drop (c.syncLen + 2)).take len)
          let received := f.getD (total - 1) 0
          let d := cnt computed received
          if d ≤ c.maxBitErrors then .recovered i len received computed d else .invalid i len received computed d

/-- The eleven columns of R205's table that RECOVER writes besides ERR. -/
structure RecoverRow where
  outcome : RecoverOutcome
  found : Bool
  idx : Nat
  length : Nat
  csumRx : Nat
  csumCalc : Nat
  csumDist : Nat
  frmValid : Bool
  frmOff : Nat
  frmLen : Nat
  remOff : Nat
deriving DecidableEq, Repr

/-- R205's table, row by row. -/
def recoverRow (syncLen : Nat) : RecoverExit → RecoverRow
  | .tooShort => ⟨.tooShort, false, 0, 0, 0, 0, 0, false, 0, 0, 0⟩
  | .noSync => ⟨.noSync, false, 0, 0, 0, 0, 0, false, 0, 0, 0⟩
  | .tooShortSliced i => ⟨.tooShort, true, i, 0, 0, 0, 0, false, 0, 0, 0⟩
  | .incompleteHeader i => ⟨.incomplete, true, i, 0, 0, 0, 0, false, 0, 0, 0⟩
  | .incompleteFrame i len => ⟨.incomplete, true, i, len, 0, 0, 0, false, 0, 0, 0⟩
  | .invalid i len received computed d =>
    ⟨.invalid, true, i, len, received.toNat, computed.toNat, d, false, 0, 0, i + 1⟩
  | .recovered i len received computed d =>
    ⟨.recovered, true, i, len, received.toNat, computed.toNat, d, true, i, totalSize syncLen len,
      i + totalSize syncLen len⟩

/-- Write every column of a row (R205). -/
def State.writeRow (s : State) (r : RecoverRow) : State :=
  { s with
    outcome := r.outcome
    found := r.found
    idx := word r.idx
    length := word r.length
    csumRx := word r.csumRx
    csumCalc := word r.csumCalc
    csumDist := word r.csumDist
    frmValid := r.frmValid
    frmOff := word r.frmOff
    frmLen := word r.frmLen
    remOff := word r.remOff }

/-- RECOVER m (R205): RXBUF and RX_LEN are read and never written; no outcome is an error. -/
def execRecover (m : Nat) (s : State) : Result :=
  .next (s.writeRow (recoverRow s.cfg.syncLen (recoverExit s.cfg s.rx m))).done

/-- The triple (outcome, frame-or-none, remainder) of R195 for the exit taken on `buf`: a frame is the
slice FRM_OFF, FRM_LEN and the remainder what is left from REM_OFF (10_state.md R36). -/
def recover (c : Config) (buf : List Byte) (m : Nat) :
    RecoverOutcome × Option (List Byte) × List Byte :=
  let r := recoverRow c.syncLen (recoverExit c buf m)
  (r.outcome, if r.frmValid then some ((buf.drop r.frmOff).take r.frmLen) else none,
    buf.drop r.remOff)

/-- The phases of R212 with what each holds. The phase is hidden: it is IDLE whenever the host can
observe anything (R47), so it is not in State. -/
inductive RecoverPhase where
  /-- IDLE, an exit having been taken -/
  | idle (e : RecoverExit)
  /-- MINCHK (1) -/
  | minchk
  /-- LOCATE (2) -/
  | locate
  /-- SLICE (3) -/
  | slice (i : Nat)
  /-- RECHK (4), `ls` being the sliced length -/
  | rechk (i ls : Nat)
  /-- HEADER (5) -/
  | header (i ls : Nat)
  /-- BOUND (6) -/
  | bound (i ls len total : Nat)
  /-- CSUM (7) -/
  | csum (i len total : Nat)
  /-- VERDICT (8) -/
  | verdict (i len : Nat) (received computed : Byte) (d : Nat)
deriving DecidableEq, Repr

/-- One phase of RECOVER m over the buffer `buf` (R212's table). -/
def phaseStep (c : Config) (buf : List Byte) (m : Nat) : RecoverPhase → RecoverPhase
  | .idle e => .idle e
  | .minchk => if buf.length < m then .idle .tooShort else .locate
  | .locate =>
    match find buf c.sync c.maxBitErrors with
    | none => .idle .noSync
    | some i => .slice i
  | .slice i => .rechk i (buf.length - i)
  | .rechk i ls => if ls < m then .idle (.tooShortSliced i) else .header i ls
  | .header i ls =>
    if ls < c.syncLen + 2 then .idle (.incompleteHeader i)
    else
      let len := be16 (buf.getD (i + c.syncLen) 0) (buf.getD (i + c.syncLen + 1) 0)
      .bound i ls len (c.syncLen + 3 + len)
  | .bound i ls len total =>
    if ls < total then .idle (.incompleteFrame i len) else .csum i len total
  | .csum i len total =>
    let computed := Sys2Proof.Machine.csum ((buf.drop (i + c.syncLen + 2)).take len)
    let received := buf.getD (i + total - 1) 0
    .verdict i len received computed (cnt computed received)
  | .verdict i len received computed d =>
    if d ≤ c.maxBitErrors then .idle (.recovered i len received computed d)
    else .idle (.invalid i len received computed d)

/-- `n` phases. -/
def runPhases (c : Config) (buf : List Byte) (m : Nat) : Nat → RecoverPhase → RecoverPhase
  | 0, p => p
  | n + 1, p => runPhases c buf m n (phaseStep c buf m p)

end Sys2Proof.Machine
end

