-- ==== Sys2Proof/Machine/Dispatch.lean ====
section
/-! DEFINITION. One command, executed to completion as one atomic step (20_memory.md R84). -/

namespace Sys2Proof.Machine

def exec (i : Instr) (s : State) : Host.Outcome State Fault Refusal :=
  match i with
  | .nop => Sys2Proof.Machine.execNop s
  | .cnt a b => Sys2Proof.Machine.execCnt a b s
  | .find => Sys2Proof.Machine.execFind s
  | .parse off => Sys2Proof.Machine.execParse off s
  | .extract => Sys2Proof.Machine.execExtract s
  | .build => Sys2Proof.Machine.execBuild s
  | .recover m => Sys2Proof.Machine.execRecover m s
  | .rxpush b => Sys2Proof.Machine.execRxpush b s
  | .rxaccept => Sys2Proof.Machine.execRxaccept s
  | .rxdrop n => Sys2Proof.Machine.execRxdrop n s
  | .rxclr => Sys2Proof.Machine.execRxclr s
  | .txpush b => Sys2Proof.Machine.execTxpush b s
  | .txclr => Sys2Proof.Machine.execTxclr s

end Sys2Proof.Machine
end

