-- ==== Sys2Proof/Machine/Flags.lean ====
section
/-! DEFINITION. The codes of ERR and OUTCOME and the packing of STATUS (10_state.md R34). -/

namespace Sys2Proof.Machine

/-- The code of an error (60_exceptions.md R276). -/
def Err.code : Err → Nat
  | .none => 0
  | .payloadTooLarge => 1
  | .insufficientData => 2
  | .nullFrame => 3
  | .illegalCommand => 4
  | .rxOverflow => 5
  | .txOverflow => 6

/-- The code of an outcome of RECOVER (30_encoding.md R120). -/
def RecoverOutcome.code : RecoverOutcome → Nat
  | .none => 0
  | .tooShort => 1
  | .noSync => 2
  | .incomplete => 3
  | .invalid => 4
  | .recovered => 5

/-- STATUS as the four flags make it: `ERR + 16*OUTCOME + 256*FOUND + 512*FRM_VALID` (R34). -/
def statusWord (e : Err) (o : RecoverOutcome) (found frmValid : Bool) : Word :=
  word (e.code + 16 * o.code + 256 * found.toNat + 512 * frmValid.toNat)

/-- Register 0 (R34). -/
def State.status (s : State) : Word := statusWord s.err s.outcome s.found s.frmValid

end Sys2Proof.Machine
end

