-- ==== Sys2Proof/Machine/HostPort.lean ====
section
/-! DEFINITION. The host's moves (20_memory.md R83), reset (70_reset_and_hazards.md R310), and the
host's reference loop PULL (43_frame_synchronizer.md R220). -/

namespace Sys2Proof.Machine

/-- `RegRead(n)` (10_state.md R31, R32): registers 19 to 31 are reserved and read as 0. -/
def regRead (s : State) (n : BitVec 5) : Word :=
  match n.toNat with
  | 0 => s.status
  | 1 => s.cnt
  | 2 => s.idx
  | 3 => s.length
  | 4 => s.csumRx
  | 5 => s.csumCalc
  | 6 => s.csumDist
  | 7 => s.frmOff
  | 8 => s.frmLen
  | 9 => s.remOff
  | 10 => s.payOff
  | 11 => s.payLen
  | 12 => s.rxLen
  | 13 => s.txpLen
  | 14 => s.txfLen
  | 15 => word s.cfg.syncLen
  | 16 => word s.cfg.maxBitErrors
  | 17 => word s.cfg.rxCap
  | 18 => word s.cfg.txpCap
  | _ => 0

/-- `MemRead(space, addr, 1)` (R80): at or above the valid length of the space, or with a space number
above 3, the byte is unspecified (a free value, log 4). -/
def memRead (s : State) (space addr : Nat) : Byte :=
  match spaceOfNumber space with
  | none => s.unspecified space addr
  | some sp => if addr < s.validLen sp then s.readByte sp addr else s.unspecified space addr

/-- `Issue(w)` (R84, 60_exceptions.md R282): the word's command is executed to completion; a word that
is no command raises IllegalCommand. The word is stored nowhere (R86). -/
def issue (w : Word) (s : State) : Result :=
  match decode w with
  | .ok i => exec i s
  | .error _ => .next (s.raise .illegalCommand)

/-- The state from which a command or a reset runs: the epoch of the free value has advanced, so that
unspecified bytes may read differently after it (log 4). -/
def State.nextEpoch (s : State) : State := { s with epoch := s.epoch + 1 }

/-- Reset, between two moves (R310, R312): the configuration is what it was, and the host's moves, its
last answer and the epoch are no part of the instance. -/
def State.afterReset (s : State) : State :=
  { State.resetOf s.cfg with pending := s.pending, answer := s.answer, epoch := s.epoch }

/-- One move of the host. Reads change no state of the instance (R79): they hand the host a value. -/
def makeMove (mv : HostMove) (s : State) : Result :=
  match mv with
  | .issue w => issue w s.nextEpoch
  | .regRead n => .next { s with answer := some (.word (regRead s n)) }
  | .memRead space addr => .next { s with answer := some (.byte (memRead s space addr)) }
  | .reset => .next s.nextEpoch.afterReset

/-- The command words that push a byte sequence: the pseudo-instruction RXPUSHS (30_encoding.md
R126). -/
def rxpushs (bs : List Byte) : List HostMove := bs.map fun b => .issue (encode (.rxpush b))

/-- The pseudo-instruction TXPUSHS (R126). -/
def txpushs (bs : List Byte) : List HostMove := bs.map fun b => .issue (encode (.txpush b))

/-- The frame bytes the host reads after Recovered: `MemRead(0, FRM_OFF + k, 1)` for k < FRM_LEN
(R220). -/
def heldFrame (s : State) : List Byte :=
  (List.range s.frmLen.toNat).map fun k => memRead s 0 (s.frmOff.toNat + k)

/-- How one PULL ended: the frame or none, the state it left, and how many RECOVERs it issued. -/
structure PullEnd where
  frame : Option (List Byte)
  state : State
  recovers : Nat
deriving DecidableEq, Repr

/-- PULL m (R126, R220), at most `fuel` rounds: RECOVER; on Invalid RXACCEPT and repeat; on Recovered
read the frame, RXACCEPT and stop with it; else stop without a frame. `none` means that the rounds did
not suffice or that a command stopped. -/
def pull (m : Nat) : Nat → State → Option PullEnd
  | 0, _ => none
  | fuel + 1, s =>
    match issue (encode (.recover m)) s.nextEpoch with
    | .next t =>
      match t.outcome with
      | .recovered =>
        match issue (encode .rxaccept) t.nextEpoch with
        | .next u => some ⟨some (heldFrame t), u, 1⟩
        | _ => none
      | .invalid =>
        match issue (encode .rxaccept) t.nextEpoch with
        | .next u => (pull m fuel u).map fun r => { r with recovers := r.recovers + 1 }
        | _ => none
      | _ => some ⟨none, t, 1⟩
    | _ => none

end Sys2Proof.Machine
end

