-- ==== Sys2Proof/Machine/Step.lean ====
section
/-! DEFINITION. One step of the instance and its host: the host's next move is made
(20_memory.md R83, R84). -/

namespace Sys2Proof.Machine

/-- The host's next move is taken from `pending` and made; with no move pending the block does nothing
(60_exceptions.md R290; log 5). -/
def step (s : State) : Host.Outcome State Fault Refusal :=
  match s.pending with
  | [] => .next s
  | mv :: rest => makeMove mv { s with pending := rest }

/-- `s` with `Issue(w)` as the host's next move, `w` cut to `nbits` bits: the block fetches nothing, a
command word is consumed when it is issued (20_memory.md R86; log 7). -/
def State.withFetchWord (s : State) (nbits w : Nat) : State :=
  { s with pending := .issue (word (w % 2 ^ nbits)) :: s.pending }

end Sys2Proof.Machine
end

