-- ==== Sys2Proof/Machine/ChannelFault.lean ====
section
/-! DEFINITION. ChannelFaultModel (45_channel_fault_model.md): not hardware, a map from the bytes sent
to the bytes received, with every random draw an explicit argument (R261, R265; log 14). Bits are
numbered from 0, the most significant bit of byte 0 (R265). -/

namespace Sys2Proof.Machine

/-- The bits of a byte, most significant first (R265). -/
def bitsOfByte (b : Byte) : List Bool := (List.range 8).map fun k => b.getLsbD (7 - k)

/-- A byte sequence read as one bit string (R263). -/
def bitsOf (bs : List Byte) : List Bool := bs.flatMap bitsOfByte

/-- The byte whose bits, most significant first, are the list; missing bits are 0. -/
def byteOfBits (bits : List Bool) : Byte :=
  BitVec.ofNat 8 (((List.range 8).map fun k => (bits.getD k false).toNat * 2 ^ (7 - k)).sum)

/-- Stage 3 (R264): bits equal to 0 are appended up to the next byte boundary, and the bits are cut
back into bytes. -/
def packBits : List Bool → List Byte
  | b7 :: b6 :: b5 :: b4 :: b3 :: b2 :: b1 :: b0 :: rest =>
    byteOfBits [b7, b6, b5, b4, b3, b2, b1, b0] :: packBits rest
  | [] => []
  | short => [byteOfBits short]

/-- The pattern of a byte's bits to invert, `flips` being the bit positions drawn within the sequence
and `i` the byte's index. -/
def flipMask (flips : List Nat) (i : Nat) : Byte :=
  byteOfBits ((List.range 8).map fun k => decide (8 * i + k ∈ flips))

/-- Stage 1 (R262): the bits at the drawn positions are inverted; the length does not change. -/
def flipStage (flips : List Nat) (x : List Byte) : List Byte :=
  x.mapIdx fun i b => b ^^^ flipMask flips i

/-- The draw of stage 2 when it acts (R263, R265). -/
inductive Slip where
  /-- one bit of value `v` is inserted before the bit at `pos` (at the end for `pos` = 8*len) -/
  | insertBit (pos : Nat) (v : Bool)
  /-- the bit at `pos` is deleted -/
  | deleteBit (pos : Nat)
deriving DecidableEq, Repr

/-- The legal draws for `n` bits: an insertion position 0..n, a deletion position 0..n-1; a deletion
of the empty sequence is the identity (R265). -/
def slipLegal (n : Nat) : Slip → Bool
  | .insertBit pos _ => decide (pos ≤ n)
  | .deleteBit pos => decide (pos < n) || decide (n = 0)

/-- Stage 2 (R263) on the bit string. -/
def slipBits (bits : List Bool) : Slip → List Bool
  | .insertBit pos v => bits.take pos ++ v :: bits.drop pos
  | .deleteBit pos => bits.eraseIdx pos

/-- The fault model (R262 to R264): flips, then one insertion or deletion if it is drawn, then zero
padding. -/
def channel (flips : List Nat) (slip : Option Slip) (x : List Byte) : List Byte :=
  let y := flipStage flips x
  match slip with
  | none => y
  | some d => packBits (slipBits (bitsOf y) d)

/-- The parameters of a use of the fault model (R261, R263): real numbers. The spec gives neither a
default (log 14). -/
structure ChannelParams where
  /-- `P_FLIP`, the probability of each bit to be flipped (R261) -/
  pFlip : ℝ
  /-- `P_INDEL`, the probability that stage 2 acts (R263) -/
  pIndel : ℝ

/-- Both parameters are probabilities, numbers in 0..1 (R261, R263). -/
def ChannelParams.legal (p : ChannelParams) : Prop :=
  0 ≤ p.pFlip ∧ p.pFlip ≤ 1 ∧ 0 ≤ p.pIndel ∧ p.pIndel ≤ 1

/-- The draws that can happen on `n` bits with these parameters, which must be legal (R261 to R263,
R265): no bit is flipped with probability 0, every bit with probability 1, and likewise for stage 2.
Properties are stated for every draw; how likely a draw is, no rule of the hardware reads (log 14). -/
def drawPossible (p : ChannelParams) (n : Nat) (flips : List Nat) (slip : Option Slip) : Prop :=
  p.legal ∧ flips.Nodup ∧ (∀ q ∈ flips, q < n) ∧ (p.pFlip = 0 → flips = []) ∧
  (p.pFlip = 1 → ∀ q, q < n → q ∈ flips) ∧ (p.pIndel = 0 → slip = none) ∧
  (p.pIndel = 1 → slip ≠ none) ∧ ∀ d, slip = some d → slipLegal n d = true

end Sys2Proof.Machine
end

