-- ==== Sys2Proof/Safety.lean ====
section
/-! DEFINITION. What a good state and a run are: the invariants of 10_state.md R42, the ranges of R32's
table, the form of the memories, and the states a host can reach (00_scope.md R29). -/

namespace Sys2Proof.Machine

/-- 10_state.md R42: (a) to (f), in the rule's order. -/
structure Inv (s : State) : Prop where
  /-- (a) -/
  rxLen_le : s.rxLen.toNat ≤ s.cfg.rxCap
  /-- (a) -/
  txpLen_le : s.txpLen.toNat ≤ s.cfg.txpCap
  /-- (a) -/
  txfLen_le : s.txfLen.toNat ≤ s.cfg.txfCap
  /-- (b) -/
  remOff_le : s.remOff.toNat ≤ s.rxLen.toNat
  /-- (c) -/
  frame_size : s.frmValid = true → s.cfg.syncLen + 3 ≤ s.frmLen.toNat
  /-- (c) -/
  frame_inside : s.frmValid = true → s.frmOff.toNat + s.frmLen.toNat ≤ s.rxLen.toNat
  /-- (c) -/
  frame_then_remainder : s.frmValid = true → s.frmOff.toNat + s.frmLen.toNat = s.remOff.toNat
  /-- (d) -/
  payload_inside : s.payOff.toNat + s.payLen.toNat ≤ s.rxLen.toNat
  /-- (e) -/
  match_inside : s.found = true → s.idx.toNat + s.cfg.syncLen ≤ s.rxLen.toNat
  /-- (f) -/
  frame_recovered : s.frmValid = true → s.outcome = .recovered

/-- The range column of R32's table for the registers that commands write (RX_LEN and TXP_LEN are in
`Inv`), and the zeros of R35 and R36. -/
structure InRange (s : State) : Prop where
  cnt_le : s.cnt.toNat ≤ 8
  idx_lt : s.idx.toNat < s.cfg.rxCap
  length_le : s.length.toNat ≤ 65535
  csumRx_le : s.csumRx.toNat ≤ 255
  csumCalc_le : s.csumCalc.toNat ≤ 255
  csumDist_le : s.csumDist.toNat ≤ 8
  frmOff_lt : s.frmOff.toNat < s.cfg.rxCap
  frmLen_range : s.frmLen = 0 ∨
    (s.cfg.syncLen + 3 ≤ s.frmLen.toNat ∧ s.frmLen.toNat ≤ s.cfg.syncLen + 65538)
  remOff_le : s.remOff.toNat ≤ s.cfg.rxCap
  payOff_le : s.payOff.toNat ≤ s.cfg.rxCap
  payLen_le : s.payLen.toNat ≤ 65535
  txfLen_range : s.txfLen = 0 ∨
    (s.cfg.syncLen + 3 ≤ s.txfLen.toNat ∧ s.txfLen.toNat ≤ s.cfg.syncLen + 65538)
  /-- R35: without a match IDX is 0 -/
  idx_zero : s.found = false → s.idx = 0
  /-- R36: without a frame FRM_OFF is 0 -/
  frmOff_zero : s.frmValid = false → s.frmOff = 0
  /-- R36: without a frame FRM_LEN is 0 -/
  frmLen_zero : s.frmValid = false → s.frmLen = 0

/-- The memories are in canonical form, list no address outside their space (20_memory.md R70), and
hold a value at every address of their valid prefix (so that no command meets a free value). -/
structure MemInv (s : State) : Prop where
  rxbuf_wf : s.rxbuf.wf
  txpay_wf : s.txpay.wf
  txfrm_wf : s.txfrm.wf
  rxbuf_inside : ∀ c ∈ s.rxbuf.cells, c.1 < s.cfg.rxCap
  txpay_inside : ∀ c ∈ s.txpay.cells, c.1 < s.cfg.txpCap
  txfrm_inside : ∀ c ∈ s.txfrm.cells, c.1 < s.cfg.txfCap
  rxbuf_held : ∀ a, a < s.rxLen.toNat → (s.rxbuf.read a).isSome = true
  txpay_held : ∀ a, a < s.txpLen.toNat → (s.txpay.read a).isSome = true
  txfrm_held : ∀ a, a < s.txfLen.toNat → (s.txfrm.read a).isSome = true

/-- The states of the runs of R29: an instance with configuration `c` starts from reset with any
sequence of host moves before it, and makes them one by one. -/
inductive Reachable (c : Config) : State → Prop where
  | start (moves : List HostMove) : Reachable c { State.resetOf c with pending := moves }
  | step (s t : State) : Reachable c s → Sys2Proof.Machine.step s = .next t → Reachable c t

end Sys2Proof.Machine
end

