-- ==== Sys2Proof/Certificates/Slice0/Obligations.lean ====
section
/-! DEFINITION. The statements for the provers. Each docstring names the rule of spec/ it formalises;
where the spec marks a rule as its own inference ("[derived: ...]") the docstring says so. -/

open Sys2Proof Sys2Proof.Machine

/-! ## The command word (30_encoding.md section 2) -/

/-- Decode and encode agree, for every command with every operand its format admits (30_encoding.md
section 2). -/
def Obligations.DecodeEncodeRoundTrip : Prop :=
  ∀ i : Instr, i.wellFormed = true → decode (encode i) = .ok i

/-- R113, "Decoding is total: every one of the 2^32 words is either exactly one command or illegal":
a word that decodes is the word of the one command it decodes to. -/
def Obligations.DecodedWordReencodes : Prop :=
  ∀ (w : Word) (i : Instr), decode w = .ok i → i.wellFormed = true ∧ encode i = w

/-- The spec's own inference from R111 and R115 (its rule on match and mask): a word is a row's command
exactly when it has the row's opcode under the format's mask, and no word is admitted by two rows. -/
def Obligations.WordIsCommandExactlyUnderMask : Prop :=
  (∀ (i : Instr) (w : Word),
    (∃ j, decode w = .ok j ∧ j.opcode = i.opcode) ↔ w &&& i.format.mask = word i.opcode) ∧
  (∀ (i j : Instr) (w : Word), w &&& i.format.mask = word i.opcode →
    w &&& j.format.mask = word j.opcode → i.opcode = j.opcode)

/-- R116, R282: the illegal words are exactly those with a reserved opcode or a must-be-zero bit set;
issuing one raises IllegalCommand and changes nothing but ERR (besides the model's own fields: the move
is consumed and the epoch of the free value advances, logs 4 and 5); NOP has one word. -/
def Obligations.ReservedWordsRaiseIllegalCommand : Prop :=
  (∀ w : Word, (∃ e, decode w = .error e) ↔
    (w.toNat % 256 = 7 ∨ 14 ≤ w.toNat % 256) ∨
    (w.toNat % 256 ∈ [0, 2, 4, 5, 9, 11, 13] ∧ w.toNat / 256 ≠ 0) ∨
    (w.toNat % 256 ∈ [8, 12] ∧ w.toNat / 65536 ≠ 0) ∨
    (w.toNat % 256 = 1 ∧ w.toNat / 16777216 ≠ 0)) ∧
  (∀ (w : Word) (e : IllegalWord) (rest : List HostMove) (s : State), decode w = .error e →
    step { s with pending := .issue w :: rest } =
      .next { s with pending := rest, epoch := s.epoch + 1, err := .illegalCommand }) ∧
  (∀ w : Word, decode w = .ok .nop → w = 0)

/-- Words written out from 95_test_vectors.md T6 and the examples of the command rules. -/
def Obligations.SpecWordsDecode : Prop :=
  decode 0x00000000 = .ok .nop ∧ decode 0x00ABAA01 = .ok (.cnt 0xAA 0xAB) ∧
  decode 0x00000002 = .ok .find ∧ decode 0x00000303 = .ok (.parse 3) ∧
  decode 0x00000506 = .ok (.recover 5) ∧ decode 0xFFFFFF06 = .ok (.recover 16777215) ∧
  decode 0x0000AA08 = .ok (.rxpush 0xAA) ∧ decode 0x0000010A = .ok (.rxdrop 1) ∧
  decode 0x0000480C = .ok (.txpush 0x48) ∧ decode 0x00010002 = .error .mustBeZeroSet ∧
  decode 0x0100AA08 = .error .mustBeZeroSet ∧ decode 0x00000007 = .error .reservedOpcode

/-- R84: a step on an issued word runs the command it decodes to, to completion. Around it the step
consumes the move and advances the epoch of the free value (logs 4 and 5). -/
def Obligations.StepRunsDecodedCommand : Prop :=
  ∀ (w : Word) (i : Instr) (rest : List HostMove) (s : State), decode w = .ok i →
    step { s with pending := .issue w :: rest } =
      exec i { s with pending := rest, epoch := s.epoch + 1 }

/-! ## BitErrorCounter (40_bit_error_counter.md) -/

/-- R144: NOP writes ERR and nothing else. -/
def Obligations.NopWritesErrOnly : Prop :=
  encode .nop = 0x00000000 ∧ ∀ s : State, exec .nop s = .next { s with err := .none }

/-- R141: CNT holds the number of differing bits; equal bytes give 0, complementary bytes 8, the order
of the operands does not matter; nothing else but ERR changes. -/
def Obligations.CntCommandResult : Prop :=
  (∀ (a b : Byte) (s : State), ∃ t, exec (.cnt a b) s = .next t ∧
    t = { s with cnt := t.cnt, err := .none } ∧ t.cnt.toNat = cnt a b) ∧
  (∀ a b : Byte, encode (.cnt a b) = word (1 + 256 * a.toNat + 65536 * b.toNat)) ∧
  (∀ a b : Byte, cnt a a = 0 ∧ cnt a (~~~a) = 8 ∧ cnt a b = cnt b a) ∧
  cnt 0xAA 0xAB = 1

/-- R140: the number of k in 0..7 with bit k of a different from bit k of b, in [0,8]. -/
def Obligations.CountIsNumberOfDifferingBits : Prop :=
  ∀ a b : Byte, cnt a b = (List.range 8).countP (fun k => a.getLsbD k != b.getLsbD k) ∧
    cnt a b = popcount8 (a ^^^ b) ∧ cnt a b ≤ 8

/-- The laws of cnt that 40_bit_error_counter.md infers from R140, in its order (a) to (f). -/
def Obligations.CountDistanceLaws : Prop :=
  (∀ a b : Byte, cnt a b ≤ 8) ∧
  (∀ a b : Byte, cnt a b = 0 ↔ a = b) ∧
  (∀ a b : Byte, cnt a b = cnt b a) ∧
  (∀ a b c : Byte, cnt a c ≤ cnt a b + cnt b c) ∧
  (∀ (a : Byte) (ks : List Nat), ks.Nodup → (∀ k ∈ ks, k < 8) →
    cnt a (ks.foldl (fun x k => x ^^^ (1#8 <<< k)) a) = ks.length) ∧
  (∀ a b : Byte, cnt a b = 8 ↔ b = a ^^^ 0xFF)

/-! ## PatternLocator (41_pattern_locator.md) -/

/-- R150, R152, R153: err is the total over the window; find returns the lowest index whose total is
within the budget, and none exactly when the buffer is shorter than the pattern or no window is. -/
def Obligations.FindReturnsFirstWindowWithinBudget : Prop :=
  (∀ (buf pat : List Byte) (i : Nat), i + pat.length ≤ buf.length →
    windowErr buf pat i =
      ((List.range pat.length).map fun j => cnt (buf.getD (i + j) 0) (pat.getD j 0)).sum) ∧
  (∀ (buf pat : List Byte) (e i : Nat), find buf pat e = some i ↔
    i + pat.length ≤ buf.length ∧ windowErr buf pat i ≤ e ∧ ∀ k, k < i → e < windowErr buf pat k) ∧
  (∀ (buf pat : List Byte) (e : Nat), find buf pat e = none ↔
    buf.length < pat.length ∨ ∀ k, k + pat.length ≤ buf.length → e < windowErr buf pat k)

/-- The spec's own inference from R150 (41_pattern_locator.md section 2, laws (d), (e), (f)): later
bytes never move a candidate, a new match uses a new byte, and the search shifts with its buffer. -/
def Obligations.FindIsStableUnderAppending : Prop :=
  (∀ (buf pat x : List Byte) (e i : Nat), find buf pat e = some i →
    find (buf ++ x) pat e = some i) ∧
  (∀ (buf pat x : List Byte) (e k : Nat), find buf pat e = none → find (buf ++ x) pat e = some k →
    buf.length < k + pat.length) ∧
  (∀ (buf pat : List Byte) (e i k : Nat), find buf pat e = some i → k ≤ i →
    find (buf.drop k) pat e = some (i - k))

/-- The spec's own inference from R150 (41_pattern_locator.md section 2, laws (g), (h), (i)): an exact
pattern is found no later than where it stands; a budget of 8 bits a byte makes every window match; a
larger budget finds no later. -/
def Obligations.FindExactSaturatedMonotone : Prop :=
  (∀ (buf pat : List Byte) (e i : Nat), i + pat.length ≤ buf.length →
    (buf.drop i).take pat.length = pat → ∃ k, k ≤ i ∧ find buf pat e = some k) ∧
  (∀ (buf pat : List Byte) (e : Nat), 8 * pat.length ≤ e → pat.length ≤ buf.length →
    find buf pat e = some 0) ∧
  (∀ (buf pat : List Byte) (e e' i : Nat), e ≤ e' → find buf pat e = some i →
    ∃ k, k ≤ i ∧ find buf pat e' = some k)

/-- R154: aborting the comparison of a window as soon as the running total exceeds the budget gives
the answer of the full total. -/
def Obligations.EarlyAbortChangesNoResult : Prop :=
  ∀ (buf pat : List Byte) (e i : Nat),
    windowMatchesEarly e 0 (buf.drop i) pat = decide (windowErr buf pat i ≤ e)

/-- R155: FIND reports what find gives on RX with the configured pattern and budget; "not found" is a
result with FOUND = IDX = 0, as it is for a buffer shorter than the pattern; a saturated budget finds
index 0. -/
def Obligations.FindCommandResult : Prop :=
  encode .find = 0x00000002 ∧
  ∀ s : State, ∃ t, exec .find s = .next t ∧
    t = { s with found := t.found, idx := t.idx, err := .none } ∧
    (∀ i, find s.rx s.cfg.sync s.cfg.maxBitErrors = some i → t.found = true ∧ t.idx.toNat = i) ∧
    (find s.rx s.cfg.sync s.cfg.maxBitErrors = none → t.found = false ∧ t.idx = 0) ∧
    (s.rxLen.toNat < s.cfg.syncLen → t.found = false) ∧
    (8 * s.cfg.syncLen ≤ s.cfg.maxBitErrors → s.cfg.syncLen ≤ s.rxLen.toNat →
      t.found = true ∧ t.idx = 0)

/-- The spec's own inference from R150 (41_pattern_locator.md section 2, on the tolerance boundary):
flipping k distinct bits inside a window that holds the pattern makes its total k, so the window still
matches exactly when k <= E. -/
def Obligations.FlippedBitsAreCounted : Prop :=
  ∀ (buf pat : List Byte) (flips : List Nat) (e i : Nat), i + pat.length ≤ buf.length →
    (buf.drop i).take pat.length = pat → flips.Nodup →
    (∀ q ∈ flips, 8 * i ≤ q ∧ q < 8 * (i + pat.length)) →
    windowErr (flipStage flips buf) pat i = flips.length ∧
    (flips.length ≤ e → ∃ k, k ≤ i ∧ find (flipStage flips buf) pat e = some k) ∧
    (e < flips.length → find (flipStage flips buf) pat e ≠ some i)

/-! ## FrameCodec (42_frame_codec.md) -/

/-- The laws of build that 42_frame_codec.md section 1 infers, (a) to (f): size, sync, length field,
payload, checksum, and different payloads give different frames; and when build fails. -/
def Obligations.BuildFrameLaws : Prop :=
  (∀ sync p : List Byte, 65535 < p.length → build sync p = .error .payloadTooLarge) ∧
  (∀ sync p : List Byte, p.length ≤ 65535 → ∃ f, build sync p = .ok f ∧
    f.length = sync.length + 3 + p.length ∧ f.take sync.length = sync ∧
    be16 (f.getD sync.length 0) (f.getD (sync.length + 1) 0) = p.length ∧
    (f.drop (sync.length + 2)).take p.length = p ∧ f.getD (f.length - 1) 0 = csum p) ∧
  (∀ sync p q f : List Byte, build sync p = .ok f → build sync q = .ok f → p = q)

/-- R168: BUILD leaves TXF = build(TXP) and TXF_LEN = N + 3 + L; every byte of TXFRM past the frame,
the staged payload and everything else are as before; a second BUILD gives the same frame. A payload
above 65535 bytes raises PayloadTooLarge instead. -/
def Obligations.BuildCommandResult : Prop :=
  encode .build = 0x00000005 ∧
  (∀ s : State, 65535 < s.txpLen.toNat →
    exec .build s = .next { s with err := .payloadTooLarge }) ∧
  ∀ s : State, s.txpLen.toNat ≤ 65535 → ∃ t, exec .build s = .next t ∧
    t = { s with txfrm := t.txfrm, txfLen := t.txfLen, err := .none } ∧
    t.txfLen.toNat = s.cfg.syncLen + 3 + s.txpLen.toNat ∧
    t.txf = s.cfg.sync ++
      [BitVec.ofNat 8 (s.txpLen.toNat / 256), BitVec.ofNat 8 (s.txpLen.toNat % 256)] ++
      s.txp ++ [csum s.txp] ∧
    build s.cfg.sync s.txp = .ok t.txf ∧
    (∀ a, s.cfg.syncLen + 3 + s.txpLen.toNat ≤ a → t.txfrm.read a = s.txfrm.read a) ∧
    ∃ u, exec .build t = .next u ∧ u.txf = t.txf

/-- R170: BUILD raises PayloadTooLarge exactly when TXP_LEN > 65535, changing ERR only; with a TXPAY
smaller than 65536 bytes it never does (TXP_LEN <= TXP_CAP is an invariant, 10_state.md section 2). -/
def Obligations.BuildPayloadTooLarge : Prop :=
  (∀ s : State, 65535 < s.txpLen.toNat →
    exec .build s = .next { s with err := .payloadTooLarge }) ∧
  (∀ s t : State, exec .build s = .next t → t.err = .payloadTooLarge → 65535 < s.txpLen.toNat) ∧
  (∀ s t : State, s.txpLen.toNat ≤ s.cfg.txpCap → s.cfg.txpCap < 65536 → exec .build s = .next t →
    t.err = .none)

/-- R171, R172, R173: parse fails with InsufficientData when the view is shorter than the header or
than the frame it declares; otherwise it returns the fields by position, whatever stands in the sync
region, whatever the checksum byte is, and whatever follows the frame. -/
def Obligations.ParseReturnsFieldsByPosition : Prop :=
  (∀ (v : List Byte) (n : Nat), v.length < n + 2 → parse v n = .error .insufficientData) ∧
  (∀ (v : List Byte) (n : Nat), n + 2 ≤ v.length →
    v.length < n + 2 + be16 (v.getD n 0) (v.getD (n + 1) 0) + 1 →
    parse v n = .error .insufficientData) ∧
  (∀ (region : List Byte) (h l : Byte) (span : List Byte) (chk : Byte) (x : List Byte),
    span.length = be16 h l →
    parse (region ++ [h, l] ++ span ++ [chk] ++ x) region.length = .ok ⟨be16 h l, span, chk⟩)

/-- R174: PARSE off works on the view RX[off..RX_LEN). Too short a view raises InsufficientData and
changes ERR only; otherwise LENGTH, PAY_OFF, PAY_LEN, CSUM_RX hold the fields and nothing else but ERR
changes. No register is truncated. -/
def Obligations.ParseCommandResult : Prop :=
  (∀ off : Nat, encode (.parse off) = word (3 + 256 * off)) ∧
  ∀ (s : State) (off : Nat),
    ((s.rx.drop off).length < s.cfg.syncLen + 2 →
      exec (.parse off) s = .next { s with err := .insufficientData }) ∧
    (∀ len : Nat, s.cfg.syncLen + 2 ≤ (s.rx.drop off).length →
      len = be16 (s.rx.getD (off + s.cfg.syncLen) 0) (s.rx.getD (off + s.cfg.syncLen + 1) 0) →
      ((s.rx.drop off).length < s.cfg.syncLen + 3 + len →
        exec (.parse off) s = .next { s with err := .insufficientData }) ∧
      (s.cfg.syncLen + 3 + len ≤ (s.rx.drop off).length →
        ∃ t, exec (.parse off) s = .next t ∧
          t = { s with
            length := t.length
            payOff := t.payOff
            payLen := t.payLen
            csumRx := t.csumRx
            err := .none } ∧
          t.length.toNat = len ∧ t.payOff.toNat = off + s.cfg.syncLen + 2 ∧ t.payLen.toNat = len ∧
          t.csumRx.toNat = (s.rx.getD (off + (s.cfg.syncLen + 3 + len) - 1) 0).toNat))

/-- R179: with no frame held EXTRACT raises NullFrame and changes ERR only; with one (in a state that
meets the invariant of 10_state.md section 2) PAY_OFF and PAY_LEN name the frame's payload, the bytes
`extract_payload` gives, and EXTRACT may be repeated. -/
def Obligations.ExtractCommandResult : Prop :=
  encode .extract = 0x00000004 ∧
  (∀ s : State, s.frmValid = false → exec .extract s = .next { s with err := .nullFrame }) ∧
  (∀ s : State, Inv s → s.frmValid = true → ∃ t, exec .extract s = .next t ∧
    t = { s with payOff := t.payOff, payLen := t.payLen, err := .none } ∧
    t.payOff.toNat = s.frmOff.toNat + s.cfg.syncLen + 2 ∧
    t.payLen.toNat + s.cfg.syncLen + 3 = s.frmLen.toNat ∧
    extractPayload s.cfg.syncLen (some ((s.rx.drop s.frmOff.toNat).take s.frmLen.toNat)) =
      .ok ((t.rx.drop t.payOff.toNat).take t.payLen.toNat) ∧
    (∀ k, k < t.payLen.toNat →
      memRead t 0 (t.payOff.toNat + k) = s.rx.getD (s.frmOff.toNat + s.cfg.syncLen + 2 + k) 0) ∧
    exec .extract t = .next t)

/-- The codec round trip that 42_frame_codec.md section 4 infers from R165, R171 and R177. -/
def Obligations.CodecRoundTrip : Prop :=
  ∀ (sync p f : List Byte), build sync p = .ok f →
    parse f sync.length = .ok ⟨p.length, p, csum p⟩ ∧
    extractPayload sync.length (some f) = .ok p ∧
    extractPayload sync.length none = .error .nullFrame

/-! ## FrameSynchronizer (43_frame_synchronizer.md) -/

/-- R195: recover, step by step, as the triple (outcome, frame-or-none, remainder), and beside it the exit
that RECOVER's table of results is read at, with what the exit carries. -/
def Obligations.RecoverFunctionSteps : Prop :=
  ∀ (c : Config) (buf : List Byte) (m : Nat),
    (buf.length < m →
      recover c buf m = (.tooShort, none, buf) ∧ recoverExit c buf m = .tooShort) ∧
    (m ≤ buf.length → find buf c.sync c.maxBitErrors = none →
      recover c buf m = (.noSync, none, buf) ∧ recoverExit c buf m = .noSync) ∧
    (∀ (i : Nat) (s : List Byte), m ≤ buf.length → find buf c.sync c.maxBitErrors = some i →
      s = buf.drop i →
      (s.length < m →
        recover c buf m = (.tooShort, none, buf) ∧ recoverExit c buf m = .tooShortSliced i) ∧
      (m ≤ s.length → s.length < c.syncLen + 2 →
        recover c buf m = (.incomplete, none, buf) ∧ recoverExit c buf m = .incompleteHeader i) ∧
      (∀ len total : Nat, m ≤ s.length → c.syncLen + 2 ≤ s.length →
        len = be16 (s.getD c.syncLen 0) (s.getD (c.syncLen + 1) 0) →
        total = c.syncLen + 2 + len + 1 →
        (s.length < total →
          recover c buf m = (.incomplete, none, buf) ∧
          recoverExit c buf m = .incompleteFrame i len) ∧
        (∀ computed received : Byte, total ≤ s.length →
          computed = csum ((s.take (total - 1)).drop (c.syncLen + 2)) →
          received = s.getD (total - 1) 0 →
          (cnt computed received ≤ c.maxBitErrors →
            recover c buf m = (.recovered, some (s.take total), s.drop total) ∧
            recoverExit c buf m = .recovered i len received computed (cnt computed received)) ∧
          (c.maxBitErrors < cnt computed received →
            recover c buf m = (.invalid, none, s.drop 1) ∧
            recoverExit c buf m = .invalid i len received computed (cnt computed received)))))

/-- R205: RECOVER writes the eleven columns of its table in the row of the exit taken, and ERR = 0, and
nothing else; no register is truncated. -/
def Obligations.RecoverCommandWritesExitRow : Prop :=
  (∀ m : Nat, encode (.recover m) = word (6 + 256 * m)) ∧
  ∀ (s : State) (m : Nat), ∃ t, exec (.recover m) s = .next t ∧
    t = { s with
      outcome := t.outcome
      found := t.found
      idx := t.idx
      length := t.length
      csumRx := t.csumRx
      csumCalc := t.csumCalc
      csumDist := t.csumDist
      frmValid := t.frmValid
      frmOff := t.frmOff
      frmLen := t.frmLen
      remOff := t.remOff
      err := .none } ∧
    [t.outcome.code, t.found.toNat, t.idx.toNat, t.length.toNat, t.csumRx.toNat, t.csumCalc.toNat,
      t.csumDist.toNat, t.frmValid.toNat, t.frmOff.toNat, t.frmLen.toNat, t.remOff.toNat] =
    match recoverExit s.cfg s.rx m with
    | .tooShort => [1, 0, 0, 0, 0, 0, 0, 0, 0, 0, 0]
    | .noSync => [2, 0, 0, 0, 0, 0, 0, 0, 0, 0, 0]
    | .tooShortSliced i => [1, 1, i, 0, 0, 0, 0, 0, 0, 0, 0]
    | .incompleteHeader i => [3, 1, i, 0, 0, 0, 0, 0, 0, 0, 0]
    | .incompleteFrame i len => [3, 1, i, len, 0, 0, 0, 0, 0, 0, 0]
    | .invalid i len r k d => [4, 1, i, len, r.toNat, k.toNat, d, 0, 0, 0, i + 1]
    | .recovered i len r k d =>
      [5, 1, i, len, r.toNat, k.toNat, d, 1, i, s.cfg.syncLen + 3 + len,
        i + (s.cfg.syncLen + 3 + len)]

/-- R206: RECOVER is stateless between calls. Two states with the same configuration and the same RX
get the same row, whatever their registers hold, and a RECOVER issued again writes the same. -/
def Obligations.RecoverIsStatelessBetweenCalls : Prop :=
  (∀ (s s' : State) (m : Nat), s.cfg = s'.cfg → s.rx = s'.rx →
    ∃ r : RecoverRow, exec (.recover m) s = .next (s.writeRow r).done ∧
      exec (.recover m) s' = .next (s'.writeRow r).done) ∧
  (∀ (s t : State) (m : Nat), exec (.recover m) s = .next t →
    t.rx = s.rx ∧ exec (.recover m) t = .next t)

/-- The phases of 43_frame_synchronizer.md section 3: taken one by one, eight phases from MINCHK reach
IDLE with the exit of the atomic algorithm. -/
def Obligations.PhaseMachineRefinesRecover : Prop :=
  ∀ (c : Config) (buf : List Byte) (m : Nat),
    runPhases c buf m 8 .minchk = .idle (recoverExit c buf m)

/-- The round trip that 43_frame_synchronizer.md section 5 proves from R195: a built frame fed through
recover comes back whole, with nothing left and its payload intact. -/
def Obligations.BuiltFrameIsRecovered : Prop :=
  ∀ (c : Config) (p f : List Byte) (m : Nat), build c.sync p = .ok f →
    m ≤ c.syncLen + 3 + p.length →
    recover c f m = (.recovered, some f, []) ∧ extractPayload c.syncLen (some f) = .ok p

/-- The sync tolerance boundary that 43_frame_synchronizer.md section 5 infers from R195: with k flips
in the sync region the frame is recovered as received when k <= E; when k > E the window at the true
start fails, and with no other window in tolerance the outcome is NoSync. -/
def Obligations.SyncToleranceBoundary : Prop :=
  ∀ (c : Config) (p f : List Byte) (flips : List Nat) (m : Nat), build c.sync p = .ok f →
    flips.Nodup → (∀ q ∈ flips, q < 8 * c.syncLen) → m ≤ f.length →
    (flips.length ≤ c.maxBitErrors →
      recover c (flipStage flips f) m = (.recovered, some (flipStage flips f), []) ∧
      extractPayload c.syncLen (some (flipStage flips f)) = .ok p) ∧
    (c.maxBitErrors < flips.length →
      (∀ i, find (flipStage flips f) c.sync c.maxBitErrors = some i → 1 ≤ i) ∧
      ((∀ i, 1 ≤ i → i + c.syncLen ≤ f.length →
          c.maxBitErrors < windowErr (flipStage flips f) c.sync i) →
        recover c (flipStage flips f) m = (.noSync, none, flipStage flips f)))

/-- The checksum tolerance boundary that 43_frame_synchronizer.md section 5 infers from R195: k flips in
the checksum byte give Recovered when k <= E, and Invalid with the one-byte slip when k > E. -/
def Obligations.ChecksumToleranceBoundary : Prop :=
  ∀ (c : Config) (p f : List Byte) (flips : List Nat) (m : Nat), build c.sync p = .ok f →
    flips.Nodup → (∀ q ∈ flips, 8 * (f.length - 1) ≤ q ∧ q < 8 * f.length) → m ≤ f.length →
    (flips.length ≤ c.maxBitErrors →
      recover c (flipStage flips f) m = (.recovered, some (flipStage flips f), [])) ∧
    (c.maxBitErrors < flips.length →
      recover c (flipStage flips f) m = (.invalid, none, (flipStage flips f).drop 1))

/-- The garbage prefix skip that 43_frame_synchronizer.md section 5 infers from R195, under its
condition that the search finds the frame's start. -/
def Obligations.GarbagePrefixIsSkipped : Prop :=
  ∀ (c : Config) (g p f x : List Byte) (m : Nat), build c.sync p = .ok f →
    m ≤ c.syncLen + 3 + p.length →
    find (g ++ f ++ x) c.sync c.maxBitErrors = some g.length →
    recover c (g ++ f ++ x) m = (.recovered, some f, x)

/-- The sequential frames that 43_frame_synchronizer.md section 5 infers from R195: two frames back to
back come out in order, with the buffer fully consumed. -/
def Obligations.SequentialFramesInOrder : Prop :=
  ∀ (c : Config) (p q f g : List Byte) (m : Nat), build c.sync p = .ok f → build c.sync q = .ok g →
    m ≤ c.syncLen + 3 + min p.length q.length →
    recover c (f ++ g) m = (.recovered, some f, g) ∧ recover c g m = (.recovered, some g, [])

/-- The stability of Incomplete that 43_frame_synchronizer.md section 5 infers from R195: the candidate
and its length stay while the bytes are too few, and when they suffice the verdict is at that same
candidate. -/
def Obligations.IncompleteStaysUntilBytesArrive : Prop :=
  ∀ (c : Config) (buf x : List Byte) (m i len : Nat),
    recoverExit c buf m = .incompleteFrame i len →
    (buf.length + x.length - i < totalSize c.syncLen len →
      recoverExit c (buf ++ x) m = .incompleteFrame i len) ∧
    (totalSize c.syncLen len ≤ buf.length + x.length - i →
      ∃ r k d, recoverExit c (buf ++ x) m = .recovered i len r k d ∨
        recoverExit c (buf ++ x) m = .invalid i len r k d)

/-- The progress that 43_frame_synchronizer.md section 4 infers from R195, R203 and R240: one PULL ends
after at most RX_LEN + 1 RECOVER commands, in every state. -/
def Obligations.PullEndsWithinBufferLength : Prop :=
  ∀ (s : State) (m : Nat), m < 16777216 →
    ∃ r, pull m (s.rxLen.toNat + 1) s = some r ∧ r.recovers ≤ s.rxLen.toNat + 1

/-- What 43_frame_synchronizer.md section 1 says of Recovered, at the host's loop of its section 4: a
frame that PULL returns holds at least a header and a checksum byte, its
sync bytes match within tolerance, and its checksum has passed tolerance. -/
def Obligations.PullReturnsOnlyCheckedFrames : Prop :=
  ∀ (s : State) (m n : Nat) (r : PullEnd) (f : List Byte), m < 16777216 → pull m n s = some r →
    r.frame = some f →
    f.length = s.cfg.syncLen + 3 +
      be16 (f.getD s.cfg.syncLen 0) (f.getD (s.cfg.syncLen + 1) 0) ∧
    windowErr f s.cfg.sync 0 ≤ s.cfg.maxBitErrors ∧
    cnt (csum ((f.take (f.length - 1)).drop (s.cfg.syncLen + 2))) (f.getD (f.length - 1) 0) ≤
      s.cfg.maxBitErrors

/-- R287: FRM_VALID becomes 1 only by a RECOVER whose checksum distance is within tolerance. -/
def Obligations.FrameHeldOnlyAfterChecksumPassed : Prop :=
  ∀ s t : State, step s = .next t → s.frmValid = false → t.frmValid = true →
    ∃ (w : Word) (m : Nat) (rest : List HostMove), s.pending = .issue w :: rest ∧
      decode w = .ok (.recover m) ∧ t.outcome = .recovered ∧
      t.csumDist.toNat ≤ s.cfg.maxBitErrors

/-- The observation of 70_reset_and_hazards.md section 2 on garbage: after NoSync, dropping all but the
last SYNC_LEN - 1 bytes loses no future candidate. -/
def Obligations.DropAfterNoSyncLosesNoCandidate : Prop :=
  ∀ (buf pat x : List Byte) (e k : Nat), 1 ≤ pat.length → pat.length ≤ buf.length →
    find buf pat e = none → find (buf ++ x) pat e = some k →
    buf.length - (pat.length - 1) ≤ k ∧
    find ((buf ++ x).drop (buf.length - (pat.length - 1))) pat e =
      some (k - (buf.length - (pat.length - 1)))

/-! ## Buffer commands (44_buffer_commands.md) -/

/-- R236: below capacity RXPUSH appends the byte to RX; every other byte of RXBUF and every other
register is as before. At capacity it raises RxOverflow and changes ERR only. -/
def Obligations.RxpushCommandResult : Prop :=
  (∀ b : Byte, encode (.rxpush b) = word (8 + 256 * b.toNat)) ∧
  (∀ (s : State) (b : Byte), s.rxLen.toNat < s.cfg.rxCap → ∃ t, exec (.rxpush b) s = .next t ∧
    t = { s with rxbuf := t.rxbuf, rxLen := t.rxLen, err := .none } ∧
    t.rxLen.toNat = s.rxLen.toNat + 1 ∧ t.rx = s.rx ++ [b] ∧
    t.rxbuf.read s.rxLen.toNat = some b ∧
    ∀ a, a ≠ s.rxLen.toNat → t.rxbuf.read a = s.rxbuf.read a) ∧
  (∀ (s : State) (b : Byte), s.rxLen.toNat = s.cfg.rxCap →
    exec (.rxpush b) s = .next { s with err := .rxOverflow })

/-- R249: the same for TXPUSH on TXPAY, with TxOverflow; a frame already built stays as built. -/
def Obligations.TxpushCommandResult : Prop :=
  (∀ b : Byte, encode (.txpush b) = word (12 + 256 * b.toNat)) ∧
  (∀ (s : State) (b : Byte), s.txpLen.toNat < s.cfg.txpCap → ∃ t, exec (.txpush b) s = .next t ∧
    t = { s with txpay := t.txpay, txpLen := t.txpLen, err := .none } ∧
    t.txpLen.toNat = s.txpLen.toNat + 1 ∧ t.txp = s.txp ++ [b] ∧
    t.txpay.read s.txpLen.toNat = some b ∧
    ∀ a, a ≠ s.txpLen.toNat → t.txpay.read a = s.txpay.read a) ∧
  (∀ (s : State) (b : Byte), s.txpLen.toNat = s.cfg.txpCap →
    exec (.txpush b) s = .next { s with err := .txOverflow })

/-- THE MODEL'S CHOICE (log 8), not a rule of the spec: in a state no run reaches, whose length register
exceeds the memory's capacity, a push stops with the fault that names the byte. -/
def Obligations.PushOutsideMemoryFaults : Prop :=
  (∀ (s : State) (b : Byte), s.cfg.rxCap < s.rxLen.toNat →
    exec (.rxpush b) s = .fault (.noSuchByte 0 s.rxLen.toNat)) ∧
  (∀ (s : State) (b : Byte), s.cfg.txpCap < s.txpLen.toNat →
    exec (.txpush b) s = .fault (.noSuchByte 1 s.txpLen.toNat))

/-- R240: RXACCEPT makes the remainder the new buffer, clears every slice register and ERR, and keeps
OUTCOME, LENGTH and the checksums and all else; a second RXACCEPT changes nothing. -/
def Obligations.RxacceptCommandResult : Prop :=
  encode .rxaccept = 0x00000009 ∧
  ∀ s : State, s.remOff.toNat ≤ s.rxLen.toNat → ∃ t, exec .rxaccept s = .next t ∧
    t = { s with
      rxbuf := t.rxbuf
      rxLen := t.rxLen
      found := false
      idx := 0
      frmValid := false
      frmOff := 0
      frmLen := 0
      remOff := 0
      payOff := 0
      payLen := 0
      err := .none } ∧
    t.rxLen.toNat + s.remOff.toNat = s.rxLen.toNat ∧ t.rx = s.rx.drop s.remOff.toNat ∧
    exec .rxaccept t = .next t

/-- R243: RXDROP n removes min(n, RX_LEN) bytes and clears every slice register, even for n = 0. -/
def Obligations.RxdropCommandResult : Prop :=
  (∀ n : Nat, encode (.rxdrop n) = word (10 + 256 * n)) ∧
  ∀ (s : State) (n : Nat), ∃ t, exec (.rxdrop n) s = .next t ∧
    t = { s with
      rxbuf := t.rxbuf
      rxLen := t.rxLen
      found := false
      idx := 0
      frmValid := false
      frmOff := 0
      frmLen := 0
      remOff := 0
      payOff := 0
      payLen := 0
      err := .none } ∧
    t.rxLen.toNat = s.rxLen.toNat - min n s.rxLen.toNat ∧
    t.rx = s.rx.drop (min n s.rxLen.toNat)

/-- R246: RXCLR empties the buffer and clears every slice register: the same end state as RXDROP n with
n >= RX_LEN. -/
def Obligations.RxclrCommandResult : Prop :=
  encode .rxclr = 0x0000000B ∧
  ∀ s : State, ∃ t, exec .rxclr s = .next t ∧
    t = { s with
      rxbuf := t.rxbuf
      rxLen := 0
      found := false
      idx := 0
      frmValid := false
      frmOff := 0
      frmLen := 0
      remOff := 0
      payOff := 0
      payLen := 0
      err := .none } ∧
    ∀ n, s.rxLen.toNat ≤ n → exec (.rxdrop n) s = .next t

/-- R252: TXCLR empties the staged payload and keeps the built frame; BUILD then gives the frame of the
empty payload. -/
def Obligations.TxclrCommandResult : Prop :=
  encode .txclr = 0x0000000D ∧
  ∀ s : State, ∃ t, exec .txclr s = .next t ∧
    t = { s with txpay := t.txpay, txpLen := 0, err := .none } ∧ t.txp = [] ∧
    ∃ u, exec .build t = .next u ∧ u.txf = s.cfg.sync ++ [0, 0, 0]

/-! ## Errors (60_exceptions.md) -/

/-- R277: a command that raises, and a word that is no command, change nothing but ERR. -/
def Obligations.RaisedErrorChangesOnlyErr : Prop :=
  (∀ (i : Instr) (s t : State), exec i s = .next t → t.err ≠ .none → t = { s with err := t.err }) ∧
  (∀ (w : Word) (s t : State), issue w s = .next t → t.err ≠ .none → t = { s with err := t.err })

/-- R278, R284: every command writes ERR, 0 when it ends normally and else the one error it can raise,
exactly when its condition holds; NOP, CNT, FIND, RECOVER, RXACCEPT, RXDROP, RXCLR and TXCLR cannot
raise. -/
def Obligations.EveryCommandWritesErr : Prop :=
  ∀ (i : Instr) (s t : State), exec i s = .next t → t.err =
    match i with
    | .build => if 65535 < s.txpLen.toNat then .payloadTooLarge else .none
    | .parse off =>
      if s.rxLen.toNat - off < s.cfg.syncLen + 2 ∨
          s.rxLen.toNat - off < s.cfg.syncLen + 3 +
            be16 (s.rx.getD (off + s.cfg.syncLen) 0) (s.rx.getD (off + s.cfg.syncLen + 1) 0)
        then .insufficientData else .none
    | .extract => if s.frmValid then .none else .nullFrame
    | .rxpush _ => if s.rxLen.toNat = s.cfg.rxCap then .rxOverflow else .none
    | .txpush _ => if s.txpLen.toNat = s.cfg.txpCap then .txOverflow else .none
    | _ => .none

/-- The write columns of 10_state.md section 2's table: what each command may change when it answers
next, and so what it leaves unchanged. Of a memory that a command stores to, every byte outside the
addresses stored to reads as before, and none is stored when an error is raised. The bytes that RXACCEPT,
RXDROP, RXCLR and TXCLR make unspecified hold no value, which is THE MODEL'S CHOICE (log 3). -/
def Obligations.CommandsWriteOnlyTheirColumns : Prop :=
  ∀ (i : Instr) (s t : State), exec i s = .next t →
    match i with
    | .nop => t = { s with err := t.err }
    | .cnt _ _ => t = { s with err := t.err, cnt := t.cnt }
    | .find => t = { s with err := t.err, found := t.found, idx := t.idx }
    | .parse _ =>
      t = { s with
        err := t.err, length := t.length, csumRx := t.csumRx, payOff := t.payOff
        payLen := t.payLen }
    | .extract => t = { s with err := t.err, payOff := t.payOff, payLen := t.payLen }
    | .build =>
      t = { s with err := t.err, txfLen := t.txfLen, txfrm := t.txfrm } ∧
      (∀ a, s.cfg.syncLen + 3 + s.txpLen.toNat ≤ a → t.txfrm.read a = s.txfrm.read a) ∧
      (t.err ≠ .none → t.txfrm = s.txfrm)
    | .recover _ =>
      t = { s with
        err := t.err, outcome := t.outcome, found := t.found, frmValid := t.frmValid
        idx := t.idx, length := t.length, csumRx := t.csumRx, csumCalc := t.csumCalc
        csumDist := t.csumDist, frmOff := t.frmOff, frmLen := t.frmLen, remOff := t.remOff }
    | .rxpush _ =>
      t = { s with err := t.err, rxLen := t.rxLen, rxbuf := t.rxbuf } ∧
      (∀ a, a ≠ s.rxLen.toNat → t.rxbuf.read a = s.rxbuf.read a) ∧
      (t.err ≠ .none → t.rxbuf = s.rxbuf)
    | .rxaccept =>
      t = { s with
        err := t.err, found := t.found, frmValid := t.frmValid, idx := t.idx
        frmOff := t.frmOff, frmLen := t.frmLen, remOff := t.remOff, payOff := t.payOff
        payLen := t.payLen, rxLen := t.rxLen, rxbuf := t.rxbuf } ∧
      t.rx = s.rx.drop s.remOff.toNat ∧ (∀ a, t.rxLen.toNat ≤ a → t.rxbuf.read a = none)
    | .rxdrop n =>
      t = { s with
        err := t.err, found := t.found, frmValid := t.frmValid, idx := t.idx
        frmOff := t.frmOff, frmLen := t.frmLen, remOff := t.remOff, payOff := t.payOff
        payLen := t.payLen, rxLen := t.rxLen, rxbuf := t.rxbuf } ∧
      t.rx = s.rx.drop (min n s.rxLen.toNat) ∧ (∀ a, t.rxLen.toNat ≤ a → t.rxbuf.read a = none)
    | .rxclr =>
      t = { s with
        err := t.err, found := t.found, frmValid := t.frmValid, idx := t.idx
        frmOff := t.frmOff, frmLen := t.frmLen, remOff := t.remOff, payOff := t.payOff
        payLen := t.payLen, rxLen := t.rxLen, rxbuf := t.rxbuf } ∧
      t.rx = [] ∧ (∀ a, t.rxbuf.read a = none)
    | .txpush _ =>
      t = { s with err := t.err, txpLen := t.txpLen, txpay := t.txpay } ∧
      (∀ a, a ≠ s.txpLen.toNat → t.txpay.read a = s.txpay.read a) ∧
      (t.err ≠ .none → t.txpay = s.txpay)
    | .txclr =>
      t = { s with err := t.err, txpLen := t.txpLen, txpay := t.txpay } ∧
      t.txp = [] ∧ (∀ a, t.txpay.read a = none)

/-! ## The host's view: registers, memories, reset -/

/-- 10_state.md R34: the bits of STATUS (register 0). R32: what every other register number reads, 19 to
31 being reserved; that no host read writes a register; and the range of every register, in a state that
meets the invariants (which are statements of their own). -/
def Obligations.StatusAndRegisterReads : Prop :=
  ∀ s : State,
    (regRead s 0).toNat =
      s.err.code + 16 * s.outcome.code + 256 * s.found.toNat + 512 * s.frmValid.toNat ∧
    ((regRead s 0).extractLsb' 0 4).toNat = s.err.code ∧
    ((regRead s 0).extractLsb' 4 3).toNat = s.outcome.code ∧
    (regRead s 0).getLsbD 7 = false ∧ (regRead s 0).getLsbD 8 = s.found ∧
    (regRead s 0).getLsbD 9 = s.frmValid ∧ (regRead s 0).extractLsb' 10 22 = 0 ∧
    [1, 2, 3, 4, 5, 6, 7, 8, 9, 10, 11, 12, 13, 14].map (regRead s) =
      [s.cnt, s.idx, s.length, s.csumRx, s.csumCalc, s.csumDist, s.frmOff, s.frmLen, s.remOff,
        s.payOff, s.payLen, s.rxLen, s.txpLen, s.txfLen] ∧
    [15, 16, 17, 18].map (fun n => (regRead s n).toNat) =
      [s.cfg.syncLen, s.cfg.maxBitErrors, s.cfg.rxCap, s.cfg.txpCap] ∧
    (∀ n : BitVec 5, 19 ≤ n.toNat → regRead s n = 0) ∧
    (∀ (mv : HostMove) (rest : List HostMove) (t : State),
      (∀ w, mv ≠ .issue w) → mv ≠ .reset → step { s with pending := mv :: rest } = .next t →
      ∀ n, regRead t n = regRead s n) ∧
    (Inv s → InRange s →
      (∀ n : BitVec 5, n.toNat ∈ [1, 6] → (regRead s n).toNat ≤ 8) ∧
      (∀ n : BitVec 5, n.toNat ∈ [2, 7] → (regRead s n).toNat < s.cfg.rxCap) ∧
      (∀ n : BitVec 5, n.toNat ∈ [3, 11] → (regRead s n).toNat ≤ 65535) ∧
      (∀ n : BitVec 5, n.toNat ∈ [4, 5] → (regRead s n).toNat ≤ 255) ∧
      (∀ n : BitVec 5, n.toNat ∈ [8, 14] → regRead s n = 0 ∨
        (s.cfg.syncLen + 3 ≤ (regRead s n).toNat ∧ (regRead s n).toNat ≤ s.cfg.syncLen + 65538)) ∧
      (∀ n : BitVec 5, n.toNat ∈ [9, 10, 12] → (regRead s n).toNat ≤ s.cfg.rxCap) ∧
      (regRead s 13).toNat ≤ s.cfg.txpCap ∧
      (1 ≤ (regRead s 15).toNat ∧ (regRead s 15).toNat ≤ 255) ∧
      (regRead s 16).toNat ≤ 4294967295 ∧
      (s.cfg.syncLen + 3 ≤ (regRead s 17).toNat ∧ (regRead s 17).toNat ≤ 16777215) ∧
      (1 ≤ (regRead s 18).toNat ∧ (regRead s 18).toNat ≤ 16777215))

/-- 10_state.md R31, 20_memory.md R73: registers 15 to 18 and SYNCROM read the configuration, whole, and
no move of the host changes it. -/
def Obligations.ConfigurationIsReadOnly : Prop :=
  (∀ s t : State, step s = .next t → t.cfg = s.cfg) ∧
  (∀ s : State, (regRead s 15).toNat = s.cfg.sync.length ∧
    (regRead s 16).toNat = s.cfg.maxBitErrors ∧ (regRead s 17).toNat = s.cfg.rxCap ∧
    (regRead s 18).toNat = s.cfg.txpCap) ∧
  (∀ (s : State) (j : Nat) (h : j < s.cfg.sync.length), memRead s 3 j = s.cfg.sync[j])

/-- 20_memory.md section 1 and R80: a host read inside a valid prefix gives the byte of RX, TXP or TXF;
elsewhere, and in a space above 3, it gives the free value of the byte (log 4), for every value of it. -/
def Obligations.MemReadFollowsValidPrefix : Prop :=
  ∀ (s : State) (a : Nat),
    (∀ h : a < s.rx.length, memRead s 0 a = s.rx[a]) ∧
    (∀ h : a < s.txp.length, memRead s 1 a = s.txp[a]) ∧
    (∀ h : a < s.txf.length, memRead s 2 a = s.txf[a]) ∧
    (s.rxLen.toNat ≤ a → memRead s 0 a = Config.unspecifiedByte s.epoch 0 a) ∧
    (s.txpLen.toNat ≤ a → memRead s 1 a = Config.unspecifiedByte s.epoch 1 a) ∧
    (s.txfLen.toNat ≤ a → memRead s 2 a = Config.unspecifiedByte s.epoch 2 a) ∧
    (s.cfg.syncLen ≤ a → memRead s 3 a = Config.unspecifiedByte s.epoch 3 a) ∧
    (∀ space, 3 < space → memRead s space a = Config.unspecifiedByte s.epoch space a)

/-- 20_memory.md R79: a host read changes no state of the instance (the model consumes the move and
records the answer, logs 5 and 6), and every read repeated after it gives the same value, unspecified
bytes included. -/
def Obligations.HostReadsHaveNoSideEffect : Prop :=
  ∀ (s : State) (mv : HostMove) (rest : List HostMove),
    (∃ n, mv = .regRead n) ∨ (∃ space addr, mv = .memRead space addr) →
    ∃ t, step { s with pending := mv :: rest } = .next t ∧
      t = { s with pending := rest, answer := t.answer } ∧
      (∀ n, mv = .regRead n → t.answer = some (.word (regRead s n))) ∧
      (∀ space addr, mv = .memRead space addr → t.answer = some (.byte (memRead s space addr))) ∧
      (∀ n, regRead t n = regRead s n) ∧
      ∀ space addr, memRead t space addr = memRead s space addr

/-- 70_reset_and_hazards.md R310: after reset, between any two moves, every register 0 to 14 reads 0 and
the configuration is what it was. What the memories hold is left open here, as in the rule. -/
def Obligations.ResetClearsRegisters : Prop :=
  ∀ (s : State) (rest : List HostMove),
    ∃ t, step { s with pending := .reset :: rest } = .next t ∧
      (∀ n : BitVec 5, n.toNat ≤ 14 → regRead t n = 0) ∧
      t.err = .none ∧ t.outcome = .none ∧ t.found = false ∧ t.frmValid = false ∧
      t.rxLen = 0 ∧ t.txpLen = 0 ∧ t.txfLen = 0 ∧
      t.cfg = s.cfg ∧ t.pending = rest

/-! ## Invariants -/

/-- The reset state of every configuration, and the state after every reset, meet every invariant. The
canonical form in MemInv, and that no memory byte holds a value after reset where the spec says
"unspecified", are THE MODEL'S CHOICE (log 3). -/
def Obligations.ResetMeetsInvariants : Prop :=
  (∀ c : Config, Inv (State.resetOf c) ∧ InRange (State.resetOf c) ∧ MemInv (State.resetOf c)) ∧
  (∀ (s t : State) (rest : List HostMove), step { s with pending := .reset :: rest } = .next t →
    Inv t ∧ InRange t ∧ MemInv t ∧
    ∀ a, t.rxbuf.read a = none ∧ t.txpay.read a = none ∧ t.txfrm.read a = none)

/-- The invariant that 10_state.md section 2 infers, (a) to (f), is kept by every step from every state
that meets it. -/
def Obligations.StepKeepsInvariant : Prop :=
  ∀ s t : State, Inv s → step s = .next t → Inv t

/-- The range column of 10_state.md section 2's register table, every row of it, is kept by every step:
the ranges of RX_LEN and TXP_LEN are in Inv, the others in InRange. -/
def Obligations.StepKeepsRegisterRanges : Prop :=
  ∀ s t : State, Inv s → InRange s → step s = .next t → Inv t ∧ InRange t

/-- The memories keep their canonical form (THE MODEL'S CHOICE, log 3), list nothing outside their
space, and hold every byte of their valid prefix, so that no command meets an unspecified byte
(20_memory.md section 3). -/
def Obligations.StepKeepsMemories : Prop :=
  (∀ s t : State, s.rxbuf.wf ∧ s.txpay.wf ∧ s.txfrm.wf → step s = .next t →
    t.rxbuf.wf ∧ t.txpay.wf ∧ t.txfrm.wf) ∧
  (∀ s t : State, Inv s → MemInv s → step s = .next t → MemInv t)

/-- In every state of every run from reset, with any moves of the host, the invariants hold. The canonical
form in MemInv is THE MODEL'S CHOICE (log 3). -/
def Obligations.ReachableStatesMeetInvariants : Prop :=
  ∀ (c : Config) (s : State), Reachable c s → Inv s ∧ InRange s ∧ MemInv s ∧ s.cfg = c

/-- 70_reset_and_hazards.md section 3: from every state that meets the invariant the next step answers a
next state, whatever the host's move is. -/
def Obligations.StepAlwaysAnswersNext : Prop :=
  ∀ s : State, Inv s → ∃ t, step s = .next t

/-! ## ChannelFaultModel (45_channel_fault_model.md) -/

/-- The lengths that 45_channel_fault_model.md gives for its stages: flips keep the length and no flip is
the identity; after a deletion the padded result has as many bytes as before (none for none), after an
insertion one more. -/
def Obligations.ChannelLengths : Prop :=
  (∀ (flips : List Nat) (x : List Byte), (channel flips none x).length = x.length) ∧
  (∀ x : List Byte, channel [] none x = x) ∧
  (∀ (flips : List Nat) (x : List Byte) (pos : Nat),
    slipLegal (8 * x.length) (.deleteBit pos) = true →
    (channel flips (some (.deleteBit pos)) x).length = x.length) ∧
  (∀ (flips : List Nat) (x : List Byte) (pos : Nat) (v : Bool),
    slipLegal (8 * x.length) (.insertBit pos v) = true →
    (channel flips (some (.insertBit pos v)) x).length = x.length + 1)

/-- The special case that 45_channel_fault_model.md infers from R264, R265 and R150: one bit inserted or
deleted ahead of the reference sync leaves its window with 15 or 16 bit errors. -/
def Obligations.OneBitSlipDestroysReferenceSync : Prop :=
  (∀ (pre post : List Byte) (pos : Nat) (v : Bool), pos ≤ 8 * pre.length →
    windowErr (channel [] (some (.insertBit pos v)) (pre ++ [0xAA, 0xAA] ++ post)) [0xAA, 0xAA]
      pre.length ∈ [15, 16]) ∧
  (∀ (pre post : List Byte) (pos : Nat), pos < 8 * pre.length →
    windowErr (channel [] (some (.deleteBit pos)) (pre ++ [0xAA, 0xAA] ++ post)) [0xAA, 0xAA]
      pre.length ∈ [15, 16])
end

