-- ==== Sys2Proof/Laws/Memory.lean ====
section
/-! SUPPORT. Every memory operation keeps the canonical form; what a read gives after a write. -/

namespace Sys2Proof.Machine

@[simp] theorem Memory.read_empty (a : Nat) : Memory.empty.read a = none := rfl

theorem Memory.wf_empty : Memory.empty.wf := List.Pairwise.nil

theorem Memory.read_cons (x : Nat) (y : Byte) (cs : List Host.Cell) (a : Nat) :
    Memory.read ⟨(x, y) :: cs⟩ a = if a = x then some y else Memory.read ⟨cs⟩ a := by
  by_cases h : a = x
  · simp [Memory.read, List.lookup, h]
  · have : (a == x) = false := by simpa using h
    simp [Memory.read, List.lookup, h, this]

/-- An address below every listed address holds no value. -/
theorem Memory.read_below (cs : List Host.Cell) (a : Nat) (h : ∀ c ∈ cs, a < c.1) :
    Memory.read ⟨cs⟩ a = none := by
  induction cs with
  | nil => rfl
  | cons c cs ih =>
    have hc := h c (by simp)
    rw [show c = (c.1, c.2) from rfl, read_cons, if_neg (by omega)]
    exact ih fun d hd => h d (by simp [hd])

/-- Where a cell of `setCell` comes from. -/
theorem mem_setCell (a : Nat) (b : Byte) (cs : List Host.Cell) (c : Host.Cell)
    (h : c ∈ setCell a b cs) : c = (a, b) ∨ c ∈ cs := by
  induction cs with
  | nil => simpa [setCell] using h
  | cons d cs ih =>
    obtain ⟨x, y⟩ := d
    unfold setCell at h
    split at h
    · simpa using h
    · split at h
      · rcases List.mem_cons.mp h with h | h
        · exact .inl h
        · exact .inr (by simp [h])
      · rcases List.mem_cons.mp h with h | h
        · exact .inr (by simp [h])
        · rcases ih h with h | h
          · exact .inl h
          · exact .inr (by simp [h])

theorem Memory.wf_write (m : Memory) (a : Nat) (b : Byte) (h : m.wf) : (m.write a b).wf := by
  obtain ⟨cs⟩ := m
  simp only [Memory.wf, Memory.write] at h ⊢
  induction cs with
  | nil => simp [setCell]
  | cons d cs ih =>
    obtain ⟨x, y⟩ := d
    rw [List.pairwise_cons] at h
    unfold setCell
    split
    · rename_i hlt
      refine List.pairwise_cons.mpr ⟨fun c hc => ?_, List.pairwise_cons.mpr h⟩
      rcases List.mem_cons.mp hc with rfl | hc
      · exact hlt
      · exact Nat.lt_trans hlt (h.1 c hc)
    · split
      · rename_i heq
        exact List.pairwise_cons.mpr ⟨fun c hc => heq ▸ h.1 c hc, h.2⟩
      · refine List.pairwise_cons.mpr ⟨fun c hc => ?_, ih h.2⟩
        rcases mem_setCell a b cs c hc with rfl | hc
        · show x < a
          omega
        · exact h.1 c hc

@[simp] theorem Memory.read_write (m : Memory) (a : Nat) (b : Byte) (x : Nat) :
    (m.write a b).read x = if x = a then some b else m.read x := by
  obtain ⟨cs⟩ := m
  simp only [Memory.write]
  induction cs with
  | nil => simp [setCell, Memory.read_cons]
  | cons d cs ih =>
    obtain ⟨y, v⟩ := d
    unfold setCell
    split
    · rw [Memory.read_cons]
    · split
      · rename_i h
        subst h
        simp only [Memory.read_cons]
        split <;> rfl
      · simp only [Memory.read_cons, ih]
        split
        · rename_i h
          subst h
          rw [if_neg (by omega)]
        · rfl

/-- The addresses a write leaves listed. -/
theorem Memory.inside_write (m : Memory) (a n : Nat) (b : Byte) (ha : a < n)
    (h : ∀ c ∈ m.cells, c.1 < n) : ∀ c ∈ (m.write a b).cells, c.1 < n := by
  intro c hc
  rcases mem_setCell a b m.cells c hc with rfl | hc
  · exact ha
  · exact h c hc

theorem Memory.wf_writeBytes (bs : List Byte) (m : Memory) (base : Nat) (h : m.wf) :
    (m.writeBytes base bs).wf := by
  induction bs generalizing m base with
  | nil => exact h
  | cons b bs ih => exact ih _ _ (m.wf_write base b h)

theorem Memory.inside_writeBytes (bs : List Byte) (m : Memory) (base n : Nat)
    (hn : base + bs.length ≤ n) (h : ∀ c ∈ m.cells, c.1 < n) :
    ∀ c ∈ (m.writeBytes base bs).cells, c.1 < n := by
  induction bs generalizing m base with
  | nil => exact h
  | cons b bs ih =>
    simp only [List.length_cons] at hn
    exact ih _ _ (by omega) (m.inside_write base n b (by omega) h)

/-- What a read gives after a byte sequence has been written at `base`. -/
@[simp] theorem Memory.read_writeBytes (bs : List Byte) (m : Memory) (base a : Nat) :
    (m.writeBytes base bs).read a =
      if base ≤ a ∧ a < base + bs.length then bs[a - base]? else m.read a := by
  induction bs generalizing m base with
  | nil =>
    rw [if_neg (by simp)]
    rfl
  | cons b bs ih =>
    simp only [Memory.writeBytes, ih, Memory.read_write, List.length_cons]
    by_cases h1 : a = base
    · subst h1
      simp
    · by_cases h2 : base + 1 ≤ a ∧ a < base + 1 + bs.length
      · rw [if_pos h2, if_pos (by omega), show a - base = (a - (base + 1)) + 1 by omega]
        rfl
      · rw [if_neg h2, if_neg h1, if_neg (by omega)]

theorem mem_cellsFrom (bs : List Byte) (base : Nat) (c : Host.Cell) (h : c ∈ cellsFrom base bs) :
    base ≤ c.1 ∧ c.1 < base + bs.length := by
  induction bs generalizing base with
  | nil => simp [cellsFrom] at h
  | cons b bs ih =>
    rcases List.mem_cons.mp h with rfl | h
    · simp
    · have := ih (base + 1) h
      simp only [List.length_cons]
      omega

theorem Memory.wf_ofBytes (bs : List Byte) : (Memory.ofBytes bs).wf := by
  suffices ∀ base, (cellsFrom base bs).Pairwise fun x y => x.1 < y.1 from this 0
  induction bs with
  | nil => exact fun _ => List.Pairwise.nil
  | cons b bs ih =>
    exact fun base => List.pairwise_cons.mpr
      ⟨fun c hc => (mem_cellsFrom bs (base + 1) c hc).1, ih (base + 1)⟩

theorem Memory.inside_ofBytes (bs : List Byte) (n : Nat) (hn : bs.length ≤ n) :
    ∀ c ∈ (Memory.ofBytes bs).cells, c.1 < n := by
  intro c hc
  have := mem_cellsFrom bs 0 c hc
  omega

/-- Byte `a` of the memory made from a sequence is the sequence's byte `a`. -/
@[simp] theorem Memory.read_ofBytes (bs : List Byte) (a : Nat) :
    (Memory.ofBytes bs).read a = bs[a]? := by
  suffices ∀ base, Memory.read ⟨cellsFrom base bs⟩ a = if a < base then none else bs[a - base]? by
    simpa [Memory.ofBytes] using this 0
  induction bs with
  | nil => intro base; simp [cellsFrom, Memory.read]
  | cons b bs ih =>
    intro base
    simp only [cellsFrom, Memory.read_cons, ih]
    by_cases h1 : a = base
    · subst h1
      simp
    · by_cases h2 : a < base
      · rw [if_neg h1, if_pos (by omega), if_pos h2]
      · rw [if_neg h1, if_neg (by omega), if_neg h2, show a - base = (a - (base + 1)) + 1 by omega]
        rfl

end Sys2Proof.Machine
end

