-- ==== Sys2Proof/Laws/State.lean ====
section
/-! SUPPORT. One lemma per field of State for each update of it. -/

namespace Sys2Proof.Machine

variable (s : State)

/-! Raising an error writes ERR only (60_exceptions.md R277). -/

@[simp] theorem State.raise_cfg (e : Err) : (s.raise e).cfg = s.cfg := rfl
@[simp] theorem State.raise_err (e : Err) : (s.raise e).err = e := rfl
@[simp] theorem State.raise_outcome (e : Err) : (s.raise e).outcome = s.outcome := rfl
@[simp] theorem State.raise_found (e : Err) : (s.raise e).found = s.found := rfl
@[simp] theorem State.raise_frmValid (e : Err) : (s.raise e).frmValid = s.frmValid := rfl
@[simp] theorem State.raise_cnt (e : Err) : (s.raise e).cnt = s.cnt := rfl
@[simp] theorem State.raise_idx (e : Err) : (s.raise e).idx = s.idx := rfl
@[simp] theorem State.raise_length (e : Err) : (s.raise e).length = s.length := rfl
@[simp] theorem State.raise_csumRx (e : Err) : (s.raise e).csumRx = s.csumRx := rfl
@[simp] theorem State.raise_csumCalc (e : Err) : (s.raise e).csumCalc = s.csumCalc := rfl
@[simp] theorem State.raise_csumDist (e : Err) : (s.raise e).csumDist = s.csumDist := rfl
@[simp] theorem State.raise_frmOff (e : Err) : (s.raise e).frmOff = s.frmOff := rfl
@[simp] theorem State.raise_frmLen (e : Err) : (s.raise e).frmLen = s.frmLen := rfl
@[simp] theorem State.raise_remOff (e : Err) : (s.raise e).remOff = s.remOff := rfl
@[simp] theorem State.raise_payOff (e : Err) : (s.raise e).payOff = s.payOff := rfl
@[simp] theorem State.raise_payLen (e : Err) : (s.raise e).payLen = s.payLen := rfl
@[simp] theorem State.raise_rxLen (e : Err) : (s.raise e).rxLen = s.rxLen := rfl
@[simp] theorem State.raise_txpLen (e : Err) : (s.raise e).txpLen = s.txpLen := rfl
@[simp] theorem State.raise_txfLen (e : Err) : (s.raise e).txfLen = s.txfLen := rfl
@[simp] theorem State.raise_rxbuf (e : Err) : (s.raise e).rxbuf = s.rxbuf := rfl
@[simp] theorem State.raise_txpay (e : Err) : (s.raise e).txpay = s.txpay := rfl
@[simp] theorem State.raise_txfrm (e : Err) : (s.raise e).txfrm = s.txfrm := rfl
@[simp] theorem State.raise_pending (e : Err) : (s.raise e).pending = s.pending := rfl
@[simp] theorem State.raise_answer (e : Err) : (s.raise e).answer = s.answer := rfl
@[simp] theorem State.raise_epoch (e : Err) : (s.raise e).epoch = s.epoch := rfl

/-! Ending normally writes ERR only (R278). -/

@[simp] theorem State.done_cfg : s.done.cfg = s.cfg := rfl
@[simp] theorem State.done_err : s.done.err = .none := rfl
@[simp] theorem State.done_outcome : s.done.outcome = s.outcome := rfl
@[simp] theorem State.done_found : s.done.found = s.found := rfl
@[simp] theorem State.done_frmValid : s.done.frmValid = s.frmValid := rfl
@[simp] theorem State.done_cnt : s.done.cnt = s.cnt := rfl
@[simp] theorem State.done_idx : s.done.idx = s.idx := rfl
@[simp] theorem State.done_length : s.done.length = s.length := rfl
@[simp] theorem State.done_csumRx : s.done.csumRx = s.csumRx := rfl
@[simp] theorem State.done_csumCalc : s.done.csumCalc = s.csumCalc := rfl
@[simp] theorem State.done_csumDist : s.done.csumDist = s.csumDist := rfl
@[simp] theorem State.done_frmOff : s.done.frmOff = s.frmOff := rfl
@[simp] theorem State.done_frmLen : s.done.frmLen = s.frmLen := rfl
@[simp] theorem State.done_remOff : s.done.remOff = s.remOff := rfl
@[simp] theorem State.done_payOff : s.done.payOff = s.payOff := rfl
@[simp] theorem State.done_payLen : s.done.payLen = s.payLen := rfl
@[simp] theorem State.done_rxLen : s.done.rxLen = s.rxLen := rfl
@[simp] theorem State.done_txpLen : s.done.txpLen = s.txpLen := rfl
@[simp] theorem State.done_txfLen : s.done.txfLen = s.txfLen := rfl
@[simp] theorem State.done_rxbuf : s.done.rxbuf = s.rxbuf := rfl
@[simp] theorem State.done_txpay : s.done.txpay = s.txpay := rfl
@[simp] theorem State.done_txfrm : s.done.txfrm = s.txfrm := rfl
@[simp] theorem State.done_pending : s.done.pending = s.pending := rfl
@[simp] theorem State.done_answer : s.done.answer = s.answer := rfl
@[simp] theorem State.done_epoch : s.done.epoch = s.epoch := rfl

/-! Slice invalidation (10_state.md R41). -/

@[simp] theorem State.invalidateSlices_cfg : s.invalidateSlices.cfg = s.cfg := rfl
@[simp] theorem State.invalidateSlices_err : s.invalidateSlices.err = s.err := rfl
@[simp] theorem State.invalidateSlices_outcome : s.invalidateSlices.outcome = s.outcome := rfl
@[simp] theorem State.invalidateSlices_found : s.invalidateSlices.found = false := rfl
@[simp] theorem State.invalidateSlices_frmValid : s.invalidateSlices.frmValid = false := rfl
@[simp] theorem State.invalidateSlices_cnt : s.invalidateSlices.cnt = s.cnt := rfl
@[simp] theorem State.invalidateSlices_idx : s.invalidateSlices.idx = 0 := rfl
@[simp] theorem State.invalidateSlices_length : s.invalidateSlices.length = s.length := rfl
@[simp] theorem State.invalidateSlices_csumRx : s.invalidateSlices.csumRx = s.csumRx := rfl
@[simp] theorem State.invalidateSlices_csumCalc : s.invalidateSlices.csumCalc = s.csumCalc := rfl
@[simp] theorem State.invalidateSlices_csumDist : s.invalidateSlices.csumDist = s.csumDist := rfl
@[simp] theorem State.invalidateSlices_frmOff : s.invalidateSlices.frmOff = 0 := rfl
@[simp] theorem State.invalidateSlices_frmLen : s.invalidateSlices.frmLen = 0 := rfl
@[simp] theorem State.invalidateSlices_remOff : s.invalidateSlices.remOff = 0 := rfl
@[simp] theorem State.invalidateSlices_payOff : s.invalidateSlices.payOff = 0 := rfl
@[simp] theorem State.invalidateSlices_payLen : s.invalidateSlices.payLen = 0 := rfl
@[simp] theorem State.invalidateSlices_rxLen : s.invalidateSlices.rxLen = s.rxLen := rfl
@[simp] theorem State.invalidateSlices_txpLen : s.invalidateSlices.txpLen = s.txpLen := rfl
@[simp] theorem State.invalidateSlices_txfLen : s.invalidateSlices.txfLen = s.txfLen := rfl
@[simp] theorem State.invalidateSlices_rxbuf : s.invalidateSlices.rxbuf = s.rxbuf := rfl
@[simp] theorem State.invalidateSlices_txpay : s.invalidateSlices.txpay = s.txpay := rfl
@[simp] theorem State.invalidateSlices_txfrm : s.invalidateSlices.txfrm = s.txfrm := rfl
@[simp] theorem State.invalidateSlices_pending : s.invalidateSlices.pending = s.pending := rfl
@[simp] theorem State.invalidateSlices_answer : s.invalidateSlices.answer = s.answer := rfl
@[simp] theorem State.invalidateSlices_epoch : s.invalidateSlices.epoch = s.epoch := rfl

/-! Removing bytes from the front (20_memory.md R82). -/

@[simp] theorem State.removeFront_cfg (k : Nat) : (s.removeFront k).cfg = s.cfg := rfl
@[simp] theorem State.removeFront_err (k : Nat) : (s.removeFront k).err = s.err := rfl
@[simp] theorem State.removeFront_outcome (k : Nat) : (s.removeFront k).outcome = s.outcome := rfl
@[simp] theorem State.removeFront_found (k : Nat) : (s.removeFront k).found = s.found := rfl
@[simp] theorem State.removeFront_frmValid (k : Nat) : (s.removeFront k).frmValid = s.frmValid := rfl
@[simp] theorem State.removeFront_cnt (k : Nat) : (s.removeFront k).cnt = s.cnt := rfl
@[simp] theorem State.removeFront_idx (k : Nat) : (s.removeFront k).idx = s.idx := rfl
@[simp] theorem State.removeFront_length (k : Nat) : (s.removeFront k).length = s.length := rfl
@[simp] theorem State.removeFront_csumRx (k : Nat) : (s.removeFront k).csumRx = s.csumRx := rfl
@[simp] theorem State.removeFront_csumCalc (k : Nat) : (s.removeFront k).csumCalc = s.csumCalc := rfl
@[simp] theorem State.removeFront_csumDist (k : Nat) : (s.removeFront k).csumDist = s.csumDist := rfl
@[simp] theorem State.removeFront_frmOff (k : Nat) : (s.removeFront k).frmOff = s.frmOff := rfl
@[simp] theorem State.removeFront_frmLen (k : Nat) : (s.removeFront k).frmLen = s.frmLen := rfl
@[simp] theorem State.removeFront_remOff (k : Nat) : (s.removeFront k).remOff = s.remOff := rfl
@[simp] theorem State.removeFront_payOff (k : Nat) : (s.removeFront k).payOff = s.payOff := rfl
@[simp] theorem State.removeFront_payLen (k : Nat) : (s.removeFront k).payLen = s.payLen := rfl
@[simp] theorem State.removeFront_rxLen (k : Nat) : (s.removeFront k).rxLen = word (s.rxLen.toNat - k) := rfl
@[simp] theorem State.removeFront_txpLen (k : Nat) : (s.removeFront k).txpLen = s.txpLen := rfl
@[simp] theorem State.removeFront_txfLen (k : Nat) : (s.removeFront k).txfLen = s.txfLen := rfl
@[simp] theorem State.removeFront_rxbuf (k : Nat) : (s.removeFront k).rxbuf = Memory.ofBytes (s.rx.drop k) := rfl
@[simp] theorem State.removeFront_txpay (k : Nat) : (s.removeFront k).txpay = s.txpay := rfl
@[simp] theorem State.removeFront_txfrm (k : Nat) : (s.removeFront k).txfrm = s.txfrm := rfl
@[simp] theorem State.removeFront_pending (k : Nat) : (s.removeFront k).pending = s.pending := rfl
@[simp] theorem State.removeFront_answer (k : Nat) : (s.removeFront k).answer = s.answer := rfl
@[simp] theorem State.removeFront_epoch (k : Nat) : (s.removeFront k).epoch = s.epoch := rfl

/-! Writing a row of RECOVER's table (43_frame_synchronizer.md R205). -/

@[simp] theorem State.writeRow_cfg (r : RecoverRow) : (s.writeRow r).cfg = s.cfg := rfl
@[simp] theorem State.writeRow_err (r : RecoverRow) : (s.writeRow r).err = s.err := rfl
@[simp] theorem State.writeRow_outcome (r : RecoverRow) : (s.writeRow r).outcome = r.outcome := rfl
@[simp] theorem State.writeRow_found (r : RecoverRow) : (s.writeRow r).found = r.found := rfl
@[simp] theorem State.writeRow_frmValid (r : RecoverRow) : (s.writeRow r).frmValid = r.frmValid := rfl
@[simp] theorem State.writeRow_cnt (r : RecoverRow) : (s.writeRow r).cnt = s.cnt := rfl
@[simp] theorem State.writeRow_idx (r : RecoverRow) : (s.writeRow r).idx = word r.idx := rfl
@[simp] theorem State.writeRow_length (r : RecoverRow) : (s.writeRow r).length = word r.length := rfl
@[simp] theorem State.writeRow_csumRx (r : RecoverRow) : (s.writeRow r).csumRx = word r.csumRx := rfl
@[simp] theorem State.writeRow_csumCalc (r : RecoverRow) : (s.writeRow r).csumCalc = word r.csumCalc := rfl
@[simp] theorem State.writeRow_csumDist (r : RecoverRow) : (s.writeRow r).csumDist = word r.csumDist := rfl
@[simp] theorem State.writeRow_frmOff (r : RecoverRow) : (s.writeRow r).frmOff = word r.frmOff := rfl
@[simp] theorem State.writeRow_frmLen (r : RecoverRow) : (s.writeRow r).frmLen = word r.frmLen := rfl
@[simp] theorem State.writeRow_remOff (r : RecoverRow) : (s.writeRow r).remOff = word r.remOff := rfl
@[simp] theorem State.writeRow_payOff (r : RecoverRow) : (s.writeRow r).payOff = s.payOff := rfl
@[simp] theorem State.writeRow_payLen (r : RecoverRow) : (s.writeRow r).payLen = s.payLen := rfl
@[simp] theorem State.writeRow_rxLen (r : RecoverRow) : (s.writeRow r).rxLen = s.rxLen := rfl
@[simp] theorem State.writeRow_txpLen (r : RecoverRow) : (s.writeRow r).txpLen = s.txpLen := rfl
@[simp] theorem State.writeRow_txfLen (r : RecoverRow) : (s.writeRow r).txfLen = s.txfLen := rfl
@[simp] theorem State.writeRow_rxbuf (r : RecoverRow) : (s.writeRow r).rxbuf = s.rxbuf := rfl
@[simp] theorem State.writeRow_txpay (r : RecoverRow) : (s.writeRow r).txpay = s.txpay := rfl
@[simp] theorem State.writeRow_txfrm (r : RecoverRow) : (s.writeRow r).txfrm = s.txfrm := rfl
@[simp] theorem State.writeRow_pending (r : RecoverRow) : (s.writeRow r).pending = s.pending := rfl
@[simp] theorem State.writeRow_answer (r : RecoverRow) : (s.writeRow r).answer = s.answer := rfl
@[simp] theorem State.writeRow_epoch (r : RecoverRow) : (s.writeRow r).epoch = s.epoch := rfl

/-! Advancing the epoch of the free value (log 4). -/

@[simp] theorem State.nextEpoch_cfg : s.nextEpoch.cfg = s.cfg := rfl
@[simp] theorem State.nextEpoch_err : s.nextEpoch.err = s.err := rfl
@[simp] theorem State.nextEpoch_outcome : s.nextEpoch.outcome = s.outcome := rfl
@[simp] theorem State.nextEpoch_found : s.nextEpoch.found = s.found := rfl
@[simp] theorem State.nextEpoch_frmValid : s.nextEpoch.frmValid = s.frmValid := rfl
@[simp] theorem State.nextEpoch_cnt : s.nextEpoch.cnt = s.cnt := rfl
@[simp] theorem State.nextEpoch_idx : s.nextEpoch.idx = s.idx := rfl
@[simp] theorem State.nextEpoch_length : s.nextEpoch.length = s.length := rfl
@[simp] theorem State.nextEpoch_csumRx : s.nextEpoch.csumRx = s.csumRx := rfl
@[simp] theorem State.nextEpoch_csumCalc : s.nextEpoch.csumCalc = s.csumCalc := rfl
@[simp] theorem State.nextEpoch_csumDist : s.nextEpoch.csumDist = s.csumDist := rfl
@[simp] theorem State.nextEpoch_frmOff : s.nextEpoch.frmOff = s.frmOff := rfl
@[simp] theorem State.nextEpoch_frmLen : s.nextEpoch.frmLen = s.frmLen := rfl
@[simp] theorem State.nextEpoch_remOff : s.nextEpoch.remOff = s.remOff := rfl
@[simp] theorem State.nextEpoch_payOff : s.nextEpoch.payOff = s.payOff := rfl
@[simp] theorem State.nextEpoch_payLen : s.nextEpoch.payLen = s.payLen := rfl
@[simp] theorem State.nextEpoch_rxLen : s.nextEpoch.rxLen = s.rxLen := rfl
@[simp] theorem State.nextEpoch_txpLen : s.nextEpoch.txpLen = s.txpLen := rfl
@[simp] theorem State.nextEpoch_txfLen : s.nextEpoch.txfLen = s.txfLen := rfl
@[simp] theorem State.nextEpoch_rxbuf : s.nextEpoch.rxbuf = s.rxbuf := rfl
@[simp] theorem State.nextEpoch_txpay : s.nextEpoch.txpay = s.txpay := rfl
@[simp] theorem State.nextEpoch_txfrm : s.nextEpoch.txfrm = s.txfrm := rfl
@[simp] theorem State.nextEpoch_pending : s.nextEpoch.pending = s.pending := rfl
@[simp] theorem State.nextEpoch_answer : s.nextEpoch.answer = s.answer := rfl
@[simp] theorem State.nextEpoch_epoch : s.nextEpoch.epoch = s.epoch + 1 := rfl

/-! Reset (70_reset_and_hazards.md R310). -/

@[simp] theorem State.afterReset_cfg : s.afterReset.cfg = s.cfg := rfl
@[simp] theorem State.afterReset_err : s.afterReset.err = .none := rfl
@[simp] theorem State.afterReset_outcome : s.afterReset.outcome = .none := rfl
@[simp] theorem State.afterReset_found : s.afterReset.found = false := rfl
@[simp] theorem State.afterReset_frmValid : s.afterReset.frmValid = false := rfl
@[simp] theorem State.afterReset_cnt : s.afterReset.cnt = 0 := rfl
@[simp] theorem State.afterReset_idx : s.afterReset.idx = 0 := rfl
@[simp] theorem State.afterReset_length : s.afterReset.length = 0 := rfl
@[simp] theorem State.afterReset_csumRx : s.afterReset.csumRx = 0 := rfl
@[simp] theorem State.afterReset_csumCalc : s.afterReset.csumCalc = 0 := rfl
@[simp] theorem State.afterReset_csumDist : s.afterReset.csumDist = 0 := rfl
@[simp] theorem State.afterReset_frmOff : s.afterReset.frmOff = 0 := rfl
@[simp] theorem State.afterReset_frmLen : s.afterReset.frmLen = 0 := rfl
@[simp] theorem State.afterReset_remOff : s.afterReset.remOff = 0 := rfl
@[simp] theorem State.afterReset_payOff : s.afterReset.payOff = 0 := rfl
@[simp] theorem State.afterReset_payLen : s.afterReset.payLen = 0 := rfl
@[simp] theorem State.afterReset_rxLen : s.afterReset.rxLen = 0 := rfl
@[simp] theorem State.afterReset_txpLen : s.afterReset.txpLen = 0 := rfl
@[simp] theorem State.afterReset_txfLen : s.afterReset.txfLen = 0 := rfl
@[simp] theorem State.afterReset_rxbuf : s.afterReset.rxbuf = Memory.empty := rfl
@[simp] theorem State.afterReset_txpay : s.afterReset.txpay = Memory.empty := rfl
@[simp] theorem State.afterReset_txfrm : s.afterReset.txfrm = Memory.empty := rfl
@[simp] theorem State.afterReset_pending : s.afterReset.pending = s.pending := rfl
@[simp] theorem State.afterReset_answer : s.afterReset.answer = s.answer := rfl
@[simp] theorem State.afterReset_epoch : s.afterReset.epoch = s.epoch := rfl

end Sys2Proof.Machine
end

