-- ==== Sys2Proof/Laws/Ops.lean ====
section
/-! SUPPORT. What the shared operations do, each said once: the byte sequences RX, TXP, TXF, the push
of a byte, the removal of bytes from the front. -/

namespace Sys2Proof.Machine

@[simp] theorem State.bytes_length (s : State) (sp : Space) (n : Nat) : (s.bytes sp n).length = n := by
  simp [State.bytes]

@[simp] theorem State.rx_length (s : State) : s.rx.length = s.rxLen.toNat := s.bytes_length _ _

@[simp] theorem State.txp_length (s : State) : s.txp.length = s.txpLen.toNat := s.bytes_length _ _

@[simp] theorem State.txf_length (s : State) : s.txf.length = s.txfLen.toNat := s.bytes_length _ _

/-- A command finds RX in the memory, its length, and what unlisted bytes read as; nothing else. -/
theorem State.rx_congr {s t : State} (hb : t.rxbuf = s.rxbuf) (hl : t.rxLen = s.rxLen)
    (he : t.epoch = s.epoch) : t.rx = s.rx := by
  simp [State.rx, State.bytes, State.readByte, State.held, State.unspecified, hb, hl, he]

theorem State.txp_congr {s t : State} (hb : t.txpay = s.txpay) (hl : t.txpLen = s.txpLen)
    (he : t.epoch = s.epoch) : t.txp = s.txp := by
  simp [State.txp, State.bytes, State.readByte, State.held, State.unspecified, hb, hl, he]

theorem State.txf_congr {s t : State} (hb : t.txfrm = s.txfrm) (hl : t.txfLen = s.txfLen)
    (he : t.epoch = s.epoch) : t.txf = s.txf := by
  simp [State.txf, State.bytes, State.readByte, State.held, State.unspecified, hb, hl, he]

/-- The first `n` bytes of a space whose first bytes are the sequence `bs`. -/
theorem State.bytes_eq (s : State) (sp : Space) (bs : List Byte)
    (h : ∀ a, a < bs.length → s.held sp a = bs[a]?) : s.bytes sp bs.length = bs := by
  refine List.ext_getElem (by simp) fun a h1 h2 => ?_
  simp [State.bytes, State.readByte, h a h2, h2]

/-- RX of a state whose RXBUF was made from a byte sequence. -/
theorem State.rx_ofBytes (s : State) (bs : List Byte) (hb : s.rxbuf = Memory.ofBytes bs)
    (hl : s.rxLen.toNat = bs.length) : s.rx = bs := by
  rw [State.rx, hl]
  exact s.bytes_eq _ bs fun a _ => by simp [State.held, hb]

/-- The push of a byte answers in one of three ways (44_buffer_commands.md R236, R249; log 8). -/
theorem pushByte_cases (m : Memory) (cap : Nat) (len : Word) (b : Byte) :
    (len.toNat = cap ∧ pushByte m cap len b = .full) ∨
    (cap < len.toNat ∧ pushByte m cap len b = .outside) ∨
    (len.toNat < cap ∧ pushByte m cap len b = .stored (m.write len.toNat b) (len + 1)) := by
  unfold pushByte
  rcases Nat.lt_trichotomy len.toNat cap with h | h | h
  · exact .inr (.inr ⟨h, by rw [if_neg (by omega), if_neg (by omega)]⟩)
  · exact .inl ⟨h, by rw [if_pos h]⟩
  · exact .inr (.inl ⟨h, by rw [if_neg (by omega), if_pos h]⟩)

/-- The new length of a push that is stored: capacities are far below 2^32 (10_state.md R33). -/
theorem pushed_length (len : Word) (cap : Nat) (h : len.toNat < cap) (hc : cap ≤ 16777215) :
    (len + 1).toNat = len.toNat + 1 := by
  rw [BitVec.toNat_add]
  exact Nat.mod_eq_of_lt (by simp; omega)

/-- After the removal of `k` bytes RX is what was after them (20_memory.md R82). -/
theorem State.rx_removeFront (s : State) (k : Nat) : (s.removeFront k).rx = s.rx.drop k := by
  refine State.rx_ofBytes _ _ (by simp) ?_
  have := s.rxLen.isLt
  simp
  omega

/-- What removing `k` bytes and invalidating slices leaves in RX_LEN. -/
theorem State.removeFront_rxLen_toNat (s : State) (k : Nat) :
    (s.removeFront k).rxLen.toNat = s.rxLen.toNat - k := by
  have := s.rxLen.isLt
  simp
  omega

end Sys2Proof.Machine
end

