-- ==== Sys2Proof/Laws/Frame.lean ====
section
/-! SUPPORT. What the codec's functions answer, each said once (42_frame_codec.md). -/

namespace Sys2Proof.Machine

/-- No length field exceeds 65535 (20_memory.md R75). -/
theorem be16_le (h l : Byte) : be16 h l ≤ 65535 := by
  have := h.isLt
  have := l.isLt
  simp only [be16]
  omega

/-- The length field reads back (R75). -/
theorem be16_lengthField (n : Nat) (h : n ≤ 65535) :
    be16 (BitVec.ofNat 8 (n / 256)) (BitVec.ofNat 8 (n % 256)) = n := by
  simp [be16]
  omega

@[simp] theorem lengthField_length (n : Nat) : (lengthField n).length = 2 := rfl

/-- build answers a frame exactly when the payload is at most 65535 bytes (R165). -/
theorem build_cases (sync p : List Byte) :
    (65535 < p.length ∧ build sync p = .error .payloadTooLarge) ∨
    (p.length ≤ 65535 ∧ build sync p = .ok (sync ++ lengthField p.length ++ p ++ [csum p])) := by
  unfold build
  split
  · exact .inl ⟨‹_›, rfl⟩
  · exact .inr ⟨by omega, rfl⟩

/-- The three ways of parse (R171, R173). -/
theorem parse_cases (v : List Byte) (n : Nat) :
    (v.length < n + 2 ∧ parse v n = .error .insufficientData) ∨
    (n + 2 ≤ v.length ∧ v.length < totalSize n (headerLength v n) ∧
      parse v n = .error .insufficientData) ∨
    (n + 2 ≤ v.length ∧ totalSize n (headerLength v n) ≤ v.length ∧
      parse v n = .ok ⟨headerLength v n, (v.drop (n + 2)).take (headerLength v n),
        v.getD (totalSize n (headerLength v n) - 1) 0⟩) := by
  unfold parse
  split
  · exact .inl ⟨‹_›, rfl⟩
  · dsimp only
    split
    · exact .inr (.inl ⟨by omega, ‹_›, rfl⟩)
    · exact .inr (.inr ⟨by omega, by omega, rfl⟩)

/-- TXF after a frame has been written from address 0. -/
theorem State.txf_writeBytes (s : State) (f : List Byte) (m : Memory)
    (hm : s.txfrm = m.writeBytes 0 f) (hl : s.txfLen.toNat = f.length) : s.txf = f := by
  rw [State.txf, hl]
  exact s.bytes_eq _ f fun a h => by simp [State.held, hm, h]

end Sys2Proof.Machine
end

