-- ==== Sys2Proof/Laws/PerInstr.lean ====
section
/-! SUPPORT. Facts about every command as syntax, one lemma per constructor. -/

namespace Sys2Proof.Laws

/-- The low byte of a command's word is its opcode (30_encoding.md R110). -/
def LowByteIsOpcode.Statement (i : Instr) : Prop := (encode i).toNat % 256 = i.opcode

theorem lowByte_of (i : Instr) (h : i.opcode < 256) : (encode i).toNat % 256 = i.opcode := by
  simp only [encode, BitVec.toNat_ofNat]
  omega

namespace LowByteIsOpcode

theorem nop : Statement .nop := lowByte_of _ (by simp [Instr.opcode])
theorem cnt (a b : Byte) : Statement (.cnt a b) := lowByte_of _ (by simp [Instr.opcode])
theorem find : Statement .find := lowByte_of _ (by simp [Instr.opcode])
theorem parse (off : Nat) : Statement (.parse off) := lowByte_of _ (by simp [Instr.opcode])
theorem extract : Statement .extract := lowByte_of _ (by simp [Instr.opcode])
theorem build : Statement .build := lowByte_of _ (by simp [Instr.opcode])
theorem recover (m : Nat) : Statement (.recover m) := lowByte_of _ (by simp [Instr.opcode])
theorem rxpush (b : Byte) : Statement (.rxpush b) := lowByte_of _ (by simp [Instr.opcode])
theorem rxaccept : Statement .rxaccept := lowByte_of _ (by simp [Instr.opcode])
theorem rxdrop (n : Nat) : Statement (.rxdrop n) := lowByte_of _ (by simp [Instr.opcode])
theorem rxclr : Statement .rxclr := lowByte_of _ (by simp [Instr.opcode])
theorem txpush (b : Byte) : Statement (.txpush b) := lowByte_of _ (by simp [Instr.opcode])
theorem txclr : Statement .txclr := lowByte_of _ (by simp [Instr.opcode])

end LowByteIsOpcode

end Sys2Proof.Laws
end

