-- ==== Sys2Proof/Laws/Recover.lean ====
section
/-! SUPPORT. What recover does once the search has answered, exit by exit; the provers cite this and do
not unfold `recoverExit` (43_frame_synchronizer.md R195). -/

namespace Sys2Proof.Machine

theorem recoverExit_tooShort (c : Config) (buf : List Byte) (m : Nat) (h : buf.length < m) :
    recoverExit c buf m = .tooShort := by
  rw [recoverExit, if_pos h]

theorem recoverExit_noSync (c : Config) (buf : List Byte) (m : Nat) (h : m ≤ buf.length)
    (hf : find buf c.sync c.maxBitErrors = none) : recoverExit c buf m = .noSync := by
  rw [recoverExit, if_neg (by omega), hf]

/-- The exits past the search, `s` being the sliced buffer (R195 steps 4 to 8): in this order, by the
length of `s` and then by the checksum. -/
theorem recoverExit_found (c : Config) (buf s : List Byte) (m i len : Nat) (h : m ≤ buf.length)
    (hf : find buf c.sync c.maxBitErrors = some i) (hs : s = buf.drop i)
    (hl : len = headerLength s c.syncLen) :
    (s.length < m ∧ recoverExit c buf m = .tooShortSliced i) ∨
    (m ≤ s.length ∧ s.length < c.syncLen + 2 ∧ recoverExit c buf m = .incompleteHeader i) ∨
    (m ≤ s.length ∧ c.syncLen + 2 ≤ s.length ∧ s.length < totalSize c.syncLen len ∧
      recoverExit c buf m = .incompleteFrame i len) ∨
    (m ≤ s.length ∧ totalSize c.syncLen len ≤ s.length ∧
      ∃ k r, k = csum ((s.drop (c.syncLen + 2)).take len) ∧
        r = s.getD (totalSize c.syncLen len - 1) 0 ∧
        ((cnt k r ≤ c.maxBitErrors ∧ recoverExit c buf m = .recovered i len r k (cnt k r)) ∨
          (c.maxBitErrors < cnt k r ∧ recoverExit c buf m = .invalid i len r k (cnt k r)))) := by
  subst hs hl
  rw [recoverExit, if_neg (by omega), hf]
  dsimp only [view]
  generalize hL : headerLength (buf.drop i) c.syncLen = len
  by_cases h4 : (buf.drop i).length < m
  · exact .inl ⟨h4, if_pos h4⟩
  refine .inr ?_
  rw [if_neg h4]
  by_cases h5 : (buf.drop i).length < c.syncLen + 2
  · exact .inl ⟨by omega, h5, if_pos h5⟩
  refine .inr ?_
  rw [if_neg h5]
  by_cases h6 : (buf.drop i).length < totalSize c.syncLen len
  · exact .inl ⟨by omega, by omega, h6, if_pos h6⟩
  refine .inr ⟨by omega, by omega, _, _, rfl, rfl, ?_⟩
  rw [if_neg h6]
  have e1 : (((buf.drop i).take (totalSize c.syncLen len)).drop (c.syncLen + 2)).take len =
      ((buf.drop i).drop (c.syncLen + 2)).take len := by
    rw [List.drop_take, List.take_take]
    congr 1
    simp only [totalSize]
    omega
  have e2 : ((buf.drop i).take (totalSize c.syncLen len)).getD (totalSize c.syncLen len - 1) 0 =
      (buf.drop i).getD (totalSize c.syncLen len - 1) 0 := by
    rw [List.getD_eq_getElem?_getD, List.getD_eq_getElem?_getD,
      List.getElem?_take_of_lt (by simp [totalSize])]
  rw [e1, e2]
  split
  · exact .inl ⟨‹_›, rfl⟩
  · exact .inr ⟨by omega, rfl⟩

end Sys2Proof.Machine
end

