-- ==== Sys2Proof/Laws/Step.lean ====
section
/-! SUPPORT. What a step can do, said once: the provers cite these and unfold neither `step` nor
`makeMove`. -/

namespace Sys2Proof.Machine

/-- The state from which the next move is made. -/
theorem step_nil (s : State) (h : s.pending = []) : step s = .next s := by
  simp [step, h]

theorem step_cons (s : State) (mv : HostMove) (rest : List HostMove) (h : s.pending = mv :: rest) :
    step s = makeMove mv { s with pending := rest } := by
  simp [step, h]

/-- Issuing a word that decodes runs its command. -/
theorem issue_ok (w : Word) (i : Instr) (s : State) (h : decode w = .ok i) : issue w s = exec i s := by
  simp [issue, h]

/-- Issuing a word that does not decode raises IllegalCommand (60_exceptions.md R282). -/
theorem issue_error (w : Word) (e : IllegalWord) (s : State) (h : decode w = .error e) :
    issue w s = .next (s.raise .illegalCommand) := by
  simp [issue, h]

/-- Everything a step can do when it answers next: idle, a command, an illegal word, one of the two
reads, reset. -/
theorem step_cases (s t : State) (h : step s = .next t) :
    (s.pending = [] ∧ t = s) ∨
    ∃ mv rest, s.pending = mv :: rest ∧
      ((∃ w i, mv = .issue w ∧ decode w = .ok i ∧
          exec i { s with pending := rest, epoch := s.epoch + 1 } = .next t) ∨
        (∃ w e, mv = .issue w ∧ decode w = .error e ∧
          t = { s with pending := rest, epoch := s.epoch + 1, err := .illegalCommand }) ∨
        (∃ n, mv = .regRead n ∧
          t = { s with pending := rest, answer := some (.word (regRead s n)) }) ∨
        (∃ space addr, mv = .memRead space addr ∧
          t = { s with pending := rest, answer := some (.byte (memRead s space addr)) }) ∨
        (mv = .reset ∧
          t = { State.resetOf s.cfg with
            pending := rest, answer := s.answer, epoch := s.epoch + 1 })) := by
  cases hp : s.pending with
  | nil =>
    rw [step_nil s hp] at h
    exact .inl ⟨rfl, (Host.Outcome.next.inj h).symm⟩
  | cons mv rest =>
    refine .inr ⟨mv, rest, rfl, ?_⟩
    rw [step_cons s mv rest hp] at h
    cases mv with
    | issue w =>
      cases hw : decode w with
      | ok i => exact .inl ⟨w, i, rfl, hw, (issue_ok w i _ hw).symm.trans h⟩
      | error e =>
        refine .inr (.inl ⟨w, e, rfl, hw, ?_⟩)
        exact (Host.Outcome.next.inj ((issue_error w e _ hw).symm.trans h)).symm
    | regRead n => exact .inr (.inr (.inl ⟨n, rfl, (Host.Outcome.next.inj h).symm⟩))
    | memRead space addr =>
      exact .inr (.inr (.inr (.inl ⟨space, addr, rfl, (Host.Outcome.next.inj h).symm⟩)))
    | reset => exact .inr (.inr (.inr (.inr ⟨rfl, (Host.Outcome.next.inj h).symm⟩)))

end Sys2Proof.Machine
end

