-- ==== Sys2Proof/Machine/System.lean ====
section
/-! DEFINITION. Several instances side by side (20_memory.md R87, 60_exceptions.md R298): each serves its
own byte stream, and they share nothing. -/

namespace Sys2Proof.Machine

/-- Independent instances, each with its own host (R298: one host per instance; log 17). -/
structure System where
  instances : List State
deriving DecidableEq, Repr

/-- Instance `k` takes its next step; `none` when there is no instance `k`. Which instance moves next is
the argument, so every interleaving can be written (R87). -/
def stepInstance (k : Nat) (sys : System) : Option (Host.Outcome System Fault Refusal) :=
  match sys.instances[k]? with
  | none => none
  | some s =>
    match step s with
    | .next t => some (.next ⟨sys.instances.set k t⟩)
    | .fault f => some (.fault f)
    | .refused r => some (.refused r)

end Sys2Proof.Machine
end

