-- ==== Sys2Proof/Laws/System.lean ====
section
/-! SUPPORT. What a step of one instance does to the others (20_memory.md R87). -/

namespace Sys2Proof.Machine

/-- A step of instance `k` is the step of its own state, and every other instance is as before. -/
theorem stepInstance_next (k : Nat) (sys sys' : System)
    (h : stepInstance k sys = some (.next sys')) :
    (∃ s t, sys.instances[k]? = some s ∧ step s = .next t ∧ sys'.instances[k]? = some t) ∧
    ∀ j, j ≠ k → sys'.instances[j]? = sys.instances[j]? := by
  unfold stepInstance at h
  split at h
  · cases h
  · rename_i s hs
    split at h <;> cases h
    rename_i t ht
    have hk : k < sys.instances.length := by
      rw [List.getElem?_eq_some_iff] at hs
      exact hs.1
    exact ⟨⟨s, t, hs, ht, by simp [hk]⟩, fun j hj => by simp [Ne.symm hj]⟩

end Sys2Proof.Machine
end

