-- ==== Sys2Proof/Machine/Assembler.lean ====
section
/-! DEFINITION. The assembler notation of 30_encoding.md R125: the mnemonic of R115 and the operands,
comma-separated; numbers in decimal (one of the two spellings that R125 allows; log 18). -/

namespace Sys2Proof.Machine

/-- The mnemonic of a command (R115). -/
def mnemonic (i : Instr) : String :=
  match i with
  | .nop => "NOP"
  | .cnt _ _ => "CNT"
  | .find => "FIND"
  | .parse _ => "PARSE"
  | .extract => "EXTRACT"
  | .build => "BUILD"
  | .recover _ => "RECOVER"
  | .rxpush _ => "RXPUSH"
  | .rxaccept => "RXACCEPT"
  | .rxdrop _ => "RXDROP"
  | .rxclr => "RXCLR"
  | .txpush _ => "TXPUSH"
  | .txclr => "TXCLR"

/-- The operands of a command in the order it is written with (R115, R125). -/
def operands (i : Instr) : List Nat :=
  match i with
  | .nop => []
  | .cnt a b => [a.toNat, b.toNat]
  | .find => []
  | .parse off => [off]
  | .extract => []
  | .build => []
  | .recover m => [m]
  | .rxpush b => [b.toNat]
  | .rxaccept => []
  | .rxdrop n => [n]
  | .rxclr => []
  | .txpush b => [b.toNat]
  | .txclr => []

/-- A command as it is written: `CNT 170, 85`, `FIND`, `PARSE 3` (R125). -/
def assembly (i : Instr) : String :=
  match operands i with
  | [] => mnemonic i
  | ns => mnemonic i ++ " " ++ ", ".intercalate (ns.map Nat.repr)

/-- The name of a register number, if it is not reserved (10_state.md R32). -/
def registerName (n : BitVec 5) : Option String :=
  ["STATUS", "CNT", "IDX", "LENGTH", "CSUM_RX", "CSUM_CALC", "CSUM_DIST", "FRM_OFF", "FRM_LEN",
    "REM_OFF", "PAY_OFF", "PAY_LEN", "RX_LEN", "TXP_LEN", "TXF_LEN", "CFG_SYNC_LEN", "CFG_MBE",
    "CFG_RX_CAP", "CFG_TXP_CAP"][n.toNat]?

/-- A host read as it is written: `RD RX_LEN`, `RDM 0, 4` (R125). A command word and reset have no such
spelling, nor has a read of a reserved register. -/
def readText (mv : HostMove) : Option String :=
  match mv with
  | .regRead n => (registerName n).map fun r => "RD " ++ r
  | .memRead space addr => some ("RDM " ++ space.repr ++ ", " ++ addr.repr)
  | .issue _ => none
  | .reset => none

end Sys2Proof.Machine
end

