-- ==== Sys2Proof/Tests/Slice0.lean ====
section
/-! SUPPORT. Small tests on fixed values, each taken from the spec's tables (95_test_vectors.md and the
value rules R159, R181, R231, R255), and for every obligation with hypotheses a concrete witness. -/

namespace Sys2Proof.Tests

open Sys2Proof.Machine

/-! ## Helpers -/

/-- A reference instance with tolerance `e`, receive buffer `rx` and staged payload `txp`. -/
def inst (rx : List Byte) (e : Nat := 0) (txp : List Byte := [])
    (h : e < 4294967296 := by decide) : State :=
  { State.resetOf (Config.reference e h) with
    rxbuf := Memory.ofBytes rx
    rxLen := word rx.length
    txpay := Memory.ofBytes txp
    txpLen := word txp.length }

/-- The smallest instance: a one-byte sync, four bytes of RXBUF, one byte of TXPAY. -/
def tinyConfig : Config where
  sync := [0x7E]
  maxBitErrors := 0
  rxCap := 4
  txpCap := 1

/-- A look at the next state, if the answer is one. -/
def look {α : Type} (r : Result) (f : State → α) : Option α :=
  match r with
  | .next t => some (f t)
  | _ => none

/-- The columns of R231's table: OUTCOME, FOUND, IDX, LENGTH, the checksums, FRM_OFF, FRM_LEN, REM_OFF. -/
def columns (t : State) : List Nat :=
  [t.outcome.code, t.found.toNat, t.idx.toNat, t.length.toNat, t.csumRx.toNat, t.csumCalc.toNat,
    t.csumDist.toNat, t.frmOff.toNat, t.frmLen.toNat, t.remOff.toNat]

/-- The frame of the payload "Hi" (S1). -/
def hi : List Byte := [0xAA, 0xAA, 0x00, 0x02, 0x48, 0x69, 0xB1]

/-- P1 after its RECOVER 5: the frame `hi` is held. -/
def held : State :=
  { inst hi with
    outcome := .recovered
    found := true
    frmValid := true
    length := 2
    csumRx := 0xB1
    csumCalc := 0xB1
    frmLen := 7
    remOff := 7 }

/-- A state whose TXP_LEN is 65536, one byte more than BUILD accepts. -/
def overfull : State := { State.resetOf (Config.reference 0) with txpLen := 65536 }

/-! ## WellFormed: an operand one past its field is refused, the largest is not -/

theorem test_wf_parse : (Instr.parse 16777216).wellFormed = false := by decide
theorem test_wf_recover : (Instr.recover 16777216).wellFormed = false := by decide
theorem test_wf_rxdrop : (Instr.rxdrop 16777216).wellFormed = false := by decide
theorem test_wf_largest : (Instr.parse 16777215).wellFormed = true := by decide

/-! ## Decode: every constructor by a word written from R110 to R115 and T6 -/

theorem test_decode_nop : decode 0x00000000 = .ok .nop := by rfl
theorem test_decode_cnt : decode 0x00ABAA01 = .ok (.cnt 0xAA 0xAB) := by rfl
theorem test_decode_find : decode 0x00000002 = .ok .find := by rfl
theorem test_decode_parse : decode 0x0003E803 = .ok (.parse 1000) := by rfl
theorem test_decode_extract : decode 0x00000004 = .ok .extract := by rfl
theorem test_decode_build : decode 0x00000005 = .ok .build := by rfl
theorem test_decode_recover : decode 0xFFFFFF06 = .ok (.recover 16777215) := by rfl
theorem test_decode_rxpush : decode 0x0000AA08 = .ok (.rxpush 0xAA) := by rfl
theorem test_decode_rxaccept : decode 0x00000009 = .ok .rxaccept := by rfl
theorem test_decode_rxdrop : decode 0x0000010A = .ok (.rxdrop 1) := by rfl
theorem test_decode_rxclr : decode 0x0000000B = .ok .rxclr := by rfl
theorem test_decode_txpush : decode 0x0000480C = .ok (.txpush 0x48) := by rfl
theorem test_decode_txclr : decode 0x0000000D = .ok .txclr := by rfl

/-- The reserved opcodes of T6. -/
theorem test_decode_reserved :
    ([0x07, 0x0E, 0xFF] : List Word).map (fun w => (decode w).toOption) = [none, none, none] := by
  decide

/-- The words of T6 with a must-be-zero bit set. -/
theorem test_decode_mustBeZero :
    ([0x100, 0x10002, 0x104, 0x100AA08, 0x1AA08, 0x1ABAA01] : List Word).all
      (fun w => (decode w).toOption == none) = true := by decide

theorem test_decodeTableWord : decodeTableWord 32 0x00ABAA01 = some (.cnt 0xAA 0xAB) := by decide

theorem test_assembly : assembly (.cnt 170 85) = "CNT 170, 85" ∧ assembly .find = "FIND" := by decide

theorem test_readText :
    readText (.regRead 12) = some "RD RX_LEN" ∧ readText (.memRead 0 4) = some "RDM 0, 4" ∧
    readText (.regRead 19) = none := by decide

/-! ## One step per command -/

theorem test_nop_clears_err :
    look (exec .nop { inst [] with err := .nullFrame, cnt := 8 }) (fun t => (t.err, t.cnt)) =
      some (.none, 8) := by decide

/-- T1: AA, AB differ in one bit. -/
theorem test_cnt_low_bit : look (exec (.cnt 0xAA 0xAB) (inst [])) (fun t => t.cnt) = some 1 := by decide
/-- T1: B1 xor B2 = 03. -/
theorem test_cnt_two_bits : look (exec (.cnt 0xB1 0xB2) (inst [])) (fun t => t.cnt) = some 2 := by decide

/-- T2: the first match wins over the exact match. -/
theorem test_find_first :
    look (exec .find (inst [0x12, 0xAA, 0x2A, 0xAA, 0xAA] 1)) (fun t => (t.found, t.idx)) =
      some (true, 1) := by decide
/-- T2: the budget is on the window's total. -/
theorem test_find_total :
    look (exec .find (inst [0xAB, 0xAB] 1)) (fun t => (t.found, t.idx)) = some (false, 0) := by decide

/-- T3: PARSE 3 behind three bytes of garbage. -/
theorem test_parse_offset :
    look (exec (.parse 3) (inst ([0x00, 0x13, 0x37] ++ hi)))
      (fun t => (t.length, t.payOff, t.payLen, t.csumRx)) = some (2, 7, 2, 0xB1) := by decide
/-- T3: the header bound. -/
theorem test_parse_header :
    look (exec (.parse 0) (inst [0xAA, 0xAA, 0x00])) (fun t => t.err) = some .insufficientData := by
  decide

/-- P1: the payload of the held frame. -/
theorem test_extract :
    look (exec .extract held) (fun t => (t.payOff, t.payLen, t.err)) = some (4, 2, .none) := by decide
/-- T3: no frame is held after reset. -/
theorem test_extract_null :
    look (exec .extract State.reset) (fun t => t.err) = some .nullFrame := by decide

/-- T3: the checksum wraps. -/
theorem test_build :
    look (exec .build (inst [] 0 [0x01, 0xFF, 0x02])) (fun t => (t.txf, t.txfLen)) =
      some ([0xAA, 0xAA, 0x00, 0x03, 0x01, 0xFF, 0x02, 0x02], 8) := by decide
/-- T3: the empty payload. -/
theorem test_build_empty :
    look (exec .build State.reset) (fun t => t.txf) = some [0xAA, 0xAA, 0x00, 0x00, 0x00] := by decide

/-- T4: one sync error and one checksum error, both tolerated. -/
theorem test_recover_tolerant :
    look (exec (.recover 5) (inst [0xAB, 0xAA, 0x00, 0x02, 0x48, 0x69, 0xB0] 1)) columns =
      some [5, 1, 0, 2, 0xB0, 0xB1, 1, 0, 7, 7] := by decide
/-- P3: a false frame fails its checksum; the remainder starts one byte later. -/
theorem test_recover_invalid :
    look (exec (.recover 5)
      (inst [0xAA, 0xAA, 0x00, 0x01, 0x10, 0xFF, 0xAA, 0xAA, 0x00, 0x02, 0x48, 0x69, 0xB1])) columns =
      some [4, 1, 0, 1, 0xFF, 0x10, 7, 0, 0, 1] := by decide

theorem test_rxpush :
    look (exec (.rxpush 0x5A) (inst [0x11])) (fun t => (t.rx, t.rxLen)) = some ([0x11, 0x5A], 2) := by
  decide
/-- T5: a byte pushed after RECOVER leaves the frame held. -/
theorem test_rxpush_keeps_frame :
    look (exec (.rxpush 0x11) held) (fun t => (t.frmValid, t.frmLen, t.remOff)) =
      some (true, 7, 7) := by decide

/-- P1: the remainder is empty, OUTCOME and LENGTH are kept, the slices are not. -/
theorem test_rxaccept :
    look (exec .rxaccept held) (fun t => (t.rx, columns t)) =
      some ([], [5, 0, 0, 2, 0xB1, 0xB1, 0, 0, 0, 0]) := by decide

/-- P7: the stray byte is dropped. -/
theorem test_rxdrop :
    look (exec (.rxdrop 1) (inst (0xAA :: hi))) (fun t => t.rx) = some hi := by decide
/-- T5: RXDROP 0 clears the slices. -/
theorem test_rxdrop_zero :
    look (exec (.rxdrop 0) held) (fun t => (t.rxLen, t.frmValid, t.remOff, t.found, t.length)) =
      some (7, false, 0, false, 2) := by decide

theorem test_rxclr :
    look (exec .rxclr held) (fun t => (t.rxLen, t.frmValid, t.outcome)) =
      some (0, false, .recovered) := by decide

theorem test_txpush :
    look (exec (.txpush 0x69) (inst [] 0 [0x48])) (fun t => t.txp) = some [0x48, 0x69] := by decide

theorem test_txclr :
    look (exec .txclr (inst [] 0 [0x48, 0x69])) (fun t => (t.txp, t.txpLen)) = some ([], 0) := by decide

/-! ## The host's moves -/

/-- T7: an illegal word after Recovered changes ERR only. -/
theorem test_illegal_status :
    look (issue 0x00000007 held) (fun t => (regRead t 0, t.rxLen)) = some (0x354, 7) := by decide

/-- T8: the configuration registers, and two of the reserved ones. -/
theorem test_regRead_config :
    [15, 16, 17, 18, 19, 31].map (regRead (inst [] 1)) = [2, 1, 131072, 65536, 0, 0] := by decide

/-- T8: a pushed byte reads back. -/
theorem test_memRead : memRead (inst [0x5A]) 0 0 = 0x5A ∧ memRead State.reset 3 1 = 0xAA := by decide

/-- The first word after reset runs (log 7). -/
theorem test_withFetchWord :
    look (step (State.reset.withFetchWord 32 0x00ABAA01)) (fun t => t.cnt) = some 1 := by decide

/-- P3: PULL 5 slips past the false frame and returns the genuine one with its second RECOVER. -/
theorem test_pull :
    (pull 5 14
      (inst [0xAA, 0xAA, 0x00, 0x01, 0x10, 0xFF, 0xAA, 0xAA, 0x00, 0x02, 0x48, 0x69, 0xB1])).map
        (fun r => (r.frame, r.recovers, r.state.rxLen)) = some (some hi, 2, 0) := by decide

/-- A bit inserted before position 4 of FF, then padding (R263, R264). -/
theorem test_channel_insert : channel [] (some (.insertBit 4 false)) [0xFF] = [0xF7, 0x80] := by decide

/-- With both probabilities 0 the only draw flips nothing and slips nothing (R262, R263). -/
theorem test_drawPossible : drawPossible ⟨0, 0⟩ 8 [] none := by
  simp [drawPossible, ChannelParams.legal]

/-! ## Witnesses: for every obligation with hypotheses, values that meet them -/

theorem witness_DecodeEncodeRoundTrip :
    (Instr.recover 16777215).wellFormed = true ∧ (Instr.cnt 0xFF 0xFF).wellFormed = true := by decide

theorem witness_DecodedWordReencodes : decode 0xFFFFFF0A = .ok (.rxdrop 16777215) := by rfl

theorem witness_WordIsCommandExactlyUnderMask :
    (0x00ABAA01 : Word) &&& (Instr.cnt 0 0).format.mask = word (Instr.cnt 0 0).opcode := by decide

theorem witness_ReservedWordsRaiseIllegalCommand :
    decode 0x0000000E = .error .reservedOpcode ∧ decode 0x00010002 = .error .mustBeZeroSet ∧
    decode 0 = .ok .nop := ⟨by rfl, by rfl, by rfl⟩

theorem witness_StepRunsDecodedCommand : decode 0x00000506 = .ok (.recover 5) := by rfl

theorem witness_CountDistanceLaws :
    [0, 7].Nodup ∧ (∀ k ∈ [0, 7], k < 8) ∧ cnt 0x0F 0x0F = 0 ∧ cnt 0x0F 0xF0 = 8 := by decide

/-- The last window of the buffer, a match within the budget, and both ways to find none. -/
theorem witness_FindReturnsFirstWindowWithinBudget :
    3 + [0xAA, 0xAA].length ≤ [0x12, 0xAA, 0x2A, 0xAA, 0xAA].length ∧
    find [0x12, 0xAA, 0x2A, 0xAA, 0xAA] [0xAA, 0xAA] 0 = some 3 ∧
    find [0xAA] [0xAA, 0xAA] 16 = none ∧ find [0x55, 0x55, 0x55] [0xAA, 0xAA] 15 = none := by decide

theorem witness_FindIsStableUnderAppending :
    find [0x00, 0xAA, 0xAA] [0xAA, 0xAA] 0 = some 1 ∧ find [0x00, 0xAA] [0xAA, 0xAA] 0 = none ∧
    find ([0x00, 0xAA] ++ [0xAA]) [0xAA, 0xAA] 0 = some 1 := by decide

theorem witness_FindExactSaturatedMonotone :
    ([0x2A, 0xAA, 0xAA].drop 1).take [(0xAA : Byte), 0xAA].length = [0xAA, 0xAA] ∧
    8 * [(0xAA : Byte), 0xAA].length ≤ 16 ∧ [(0xAA : Byte), 0xAA].length ≤ 3 ∧
    find [0x2A, 0xAA, 0xAA] [0xAA, 0xAA] 0 = some 1 ∧
    find [0x2A, 0xAA, 0xAA] [0xAA, 0xAA] 1 = some 0 := by decide

/-- FIND with a match, with none, on a buffer shorter than the pattern, and saturated. -/
theorem witness_FindCommandResult :
    find (inst [0x00, 0xAA, 0xAA]).rx [0xAA, 0xAA] 0 = some 1 ∧
    find (inst [0xAB, 0xAB]).rx [0xAA, 0xAA] 0 = none ∧
    (inst [0xAA]).rxLen.toNat < (inst [0xAA]).cfg.syncLen ∧
    8 * (inst [0x55, 0x55] 16).cfg.syncLen ≤ (inst [0x55, 0x55] 16).cfg.maxBitErrors ∧
    (inst [0x55, 0x55] 16).cfg.syncLen ≤ (inst [0x55, 0x55] 16).rxLen.toNat := by decide

/-- The first and the last bit of the window at 1. -/
theorem witness_FlippedBitsAreCounted :
    1 + [(0xAA : Byte), 0xAA].length ≤ [(0x00 : Byte), 0xAA, 0xAA].length ∧
    ([(0x00 : Byte), 0xAA, 0xAA].drop 1).take 2 = [0xAA, 0xAA] ∧ [8, 23].Nodup ∧
    (∀ q ∈ [8, 23], 8 * 1 ≤ q ∧ q < 8 * (1 + 2)) ∧ [8, 23].length ≤ 2 ∧ 1 < [8, 23].length := by decide

theorem witness_BuildFrameLaws :
    65535 < (List.replicate 65536 (0 : Byte)).length ∧
    (List.replicate 65535 (0 : Byte)).length ≤ 65535 ∧ build [0xAA, 0xAA] [0x48, 0x69] = .ok hi :=
  ⟨by rw [List.length_replicate]; decide, by rw [List.length_replicate], by rfl⟩

theorem witness_BuildCommandResult :
    (inst [] 0 [0x48]).txpLen.toNat ≤ 65535 ∧
    ({ overfull with txpLen := 65535 } : State).txpLen.toNat ≤ 65535 := by decide

/-- The three clauses: too large; a BUILD that raised; a TXPAY smaller than 65536 bytes. -/
theorem witness_BuildPayloadTooLarge :
    65535 < overfull.txpLen.toNat ∧
    exec .build overfull = .next (overfull.raise .payloadTooLarge) ∧
    (overfull.raise .payloadTooLarge).err = .payloadTooLarge ∧
    (State.resetOf tinyConfig).txpLen.toNat ≤ tinyConfig.txpCap ∧ tinyConfig.txpCap < 65536 := by
  refine ⟨by decide, ?_, rfl, by decide, by decide⟩
  have h : 65535 < overfull.txp.length := by
    rw [State.txp_length]
    decide
  rw [exec, execBuild, build, if_pos h]

/-- A view one byte short of the header, one byte short of the frame, and a whole frame. -/
theorem witness_ParseReturnsFieldsByPosition :
    [(0xAA : Byte), 0xAA, 0x00].length < 2 + 2 ∧ 2 + 2 ≤ (hi.take 6).length ∧
    (hi.take 6).length < 2 + 2 + be16 ((hi.take 6).getD 2 0) ((hi.take 6).getD 3 0) + 1 ∧
    [(0x48 : Byte), 0x69].length = be16 0x00 0x02 := by decide

theorem witness_ParseCommandResult :
    ((inst [0xAA, 0xAA, 0x00]).rx.drop 0).length < 2 + 2 ∧
    2 + 2 ≤ ((inst [0xAA, 0xAA, 0x00, 0x05, 0x48]).rx.drop 0).length ∧
    5 = be16 ((inst [0xAA, 0xAA, 0x00, 0x05, 0x48]).rx.getD (0 + 2) 0)
      ((inst [0xAA, 0xAA, 0x00, 0x05, 0x48]).rx.getD (0 + 2 + 1) 0) ∧
    ((inst [0xAA, 0xAA, 0x00, 0x05, 0x48]).rx.drop 0).length < 2 + 3 + 5 ∧
    2 = be16 ((inst hi).rx.getD (0 + 2) 0) ((inst hi).rx.getD (0 + 2 + 1) 0) ∧
    2 + 3 + 2 ≤ ((inst hi).rx.drop 0).length := by decide

theorem inv_held : Inv held := by constructor <;> decide

theorem witness_ExtractCommandResult :
    State.reset.frmValid = false ∧ Inv held ∧ held.frmValid = true := ⟨rfl, inv_held, rfl⟩

theorem witness_CodecRoundTrip : build [0xAA, 0xAA] [0x48, 0x69] = .ok hi := by rfl

/-- Every exit of recover, on the reference configuration with tolerance 0. -/
theorem witness_RecoverFunctionSteps :
    ([] : List Byte).length < 5 ∧ find [0x00, 0x00, 0x00, 0x00, 0x00] [0xAA, 0xAA] 0 = none ∧
    find ([0x00, 0x13, 0x37] ++ hi) [0xAA, 0xAA] 0 = some 3 ∧
    (([0x00, 0x13, 0x37] ++ hi).drop 3).length < 8 ∧
    find [0xAA, 0xAA, 0x00] [0xAA, 0xAA] 0 = some 0 ∧
    ([0xAA, 0xAA, 0x00] : List Byte).length < 2 + 2 ∧
    find [0xAA, 0xAA, 0x00, 0x05, 0x48] [0xAA, 0xAA] 0 = some 0 ∧
    ([0xAA, 0xAA, 0x00, 0x05, 0x48] : List Byte).length < 2 + 2 + be16 0x00 0x05 + 1 ∧
    find hi [0xAA, 0xAA] 0 = some 0 ∧ 2 + 2 + be16 0x00 0x02 + 1 ≤ hi.length ∧
    cnt (csum ((hi.take 6).drop 4)) (hi.getD 6 0) ≤ 0 ∧
    find [0xAA, 0xAA, 0x00, 0x01, 0x10, 0xFF] [0xAA, 0xAA] 0 = some 0 ∧
    0 < cnt (csum (([0xAA, 0xAA, 0x00, 0x01, 0x10, 0xFF].take 5).drop 4)) 0xFF := by decide

theorem witness_RecoverIsStatelessBetweenCalls :
    (inst hi).cfg = held.cfg ∧ (inst hi).rx = held.rx ∧
    exec (.recover 5) State.reset = .next { State.reset with outcome := .tooShort } :=
  ⟨rfl, rfl, by rfl⟩

theorem witness_BuiltFrameIsRecovered :
    build (Config.reference 0).sync [0x48, 0x69] = .ok hi ∧
    7 ≤ (Config.reference 0).syncLen + 3 + [(0x48 : Byte), 0x69].length := ⟨by rfl, by decide⟩

/-- k = E, and k = E + 1 with no other window within tolerance. -/
theorem witness_SyncToleranceBoundary :
    build (Config.reference 1).sync [0x48, 0x69] = .ok hi ∧ [15].Nodup ∧ [0, 15].Nodup ∧
    (∀ q ∈ [0, 15], q < 8 * (Config.reference 1).syncLen) ∧ 5 ≤ hi.length ∧
    [15].length ≤ (Config.reference 1).maxBitErrors ∧
    (Config.reference 1).maxBitErrors < [0, 15].length ∧
    (∀ i, 1 ≤ i → i + 2 ≤ hi.length → 1 < windowErr (flipStage [0, 15] hi) [0xAA, 0xAA] i) := by
  refine ⟨by rfl, by decide, by decide, by decide, by decide, by decide, by decide, fun i h1 h2 => ?_⟩
  have h : i ≤ 5 := by
    have : hi.length = 7 := rfl
    omega
  revert h1 h2
  interval_cases i <;> decide

theorem witness_ChecksumToleranceBoundary :
    build (Config.reference 1).sync [0x48, 0x69] = .ok hi ∧ [48, 55].Nodup ∧
    (∀ q ∈ [48, 55], 8 * (hi.length - 1) ≤ q ∧ q < 8 * hi.length) ∧ 5 ≤ hi.length ∧
    [55].length ≤ (Config.reference 1).maxBitErrors ∧
    (Config.reference 1).maxBitErrors < [48, 55].length :=
  ⟨by rfl, by decide, by decide, by decide, by decide, by decide⟩

theorem witness_GarbagePrefixIsSkipped :
    build (Config.reference 0).sync [0x48, 0x69] = .ok hi ∧
    5 ≤ (Config.reference 0).syncLen + 3 + 2 ∧
    find ([0x00, 0x13, 0x37] ++ hi ++ [0x99]) (Config.reference 0).sync 0 = some 3 :=
  ⟨by rfl, by decide, by decide⟩

theorem witness_SequentialFramesInOrder :
    build (Config.reference 0).sync [0x48, 0x69] = .ok hi ∧
    build (Config.reference 0).sync [] = .ok [0xAA, 0xAA, 0x00, 0x00, 0x00] ∧
    5 ≤ (Config.reference 0).syncLen + 3 + min 2 0 := ⟨by rfl, by rfl, by decide⟩

/-- P5: three more bytes are too few, five suffice. -/
theorem witness_IncompleteStaysUntilBytesArrive :
    recoverExit (Config.reference 0) [0xAA, 0xAA, 0x00, 0x05, 0x48] 5 = .incompleteFrame 0 5 ∧
    5 + 4 - 0 < totalSize (Config.reference 0).syncLen 5 ∧
    totalSize (Config.reference 0).syncLen 5 ≤ 5 + 5 - 0 := by decide

theorem witness_PullEndsWithinBufferLength : 16777215 < 16777216 := by decide

theorem witness_PullReturnsOnlyCheckedFrames :
    (pull 5 2 (inst hi)).bind (fun r => r.frame) = some hi := by decide

/-- RECOVER 5 on RX = `hi`. -/
theorem witness_FrameHeldOnlyAfterChecksumPassed :
    (inst hi).frmValid = false ∧
    look (step ((inst hi).withFetchWord 32 0x506)) (fun t => t.frmValid) = some true := by decide

theorem witness_DropAfterNoSyncLosesNoCandidate :
    1 ≤ [(0xAA : Byte), 0xAA].length ∧ [(0xAA : Byte), 0xAA].length ≤ [(0x01 : Byte), 0xAA].length ∧
    find [0x01, 0xAA] [0xAA, 0xAA] 0 = none ∧
    find ([0x01, 0xAA] ++ [0xAA]) [0xAA, 0xAA] 0 = some 1 := by decide

/-- One byte below capacity, and at capacity. -/
theorem witness_RxpushCommandResult :
    ({ State.resetOf tinyConfig with rxLen := 3 } : State).rxLen.toNat < tinyConfig.rxCap ∧
    ({ State.resetOf tinyConfig with rxLen := 4 } : State).rxLen.toNat = tinyConfig.rxCap := by decide

theorem witness_TxpushCommandResult :
    (State.resetOf tinyConfig).txpLen.toNat < tinyConfig.txpCap ∧
    ({ State.resetOf tinyConfig with txpLen := 1 } : State).txpLen.toNat = tinyConfig.txpCap := by decide

theorem witness_PushOutsideMemoryFaults :
    tinyConfig.rxCap < ({ State.resetOf tinyConfig with rxLen := 5 } : State).rxLen.toNat ∧
    tinyConfig.txpCap < ({ State.resetOf tinyConfig with txpLen := 2 } : State).txpLen.toNat := by decide

/-- REM_OFF at its largest, RX_LEN. -/
theorem witness_RxacceptCommandResult : held.remOff.toNat ≤ held.rxLen.toNat := by decide

theorem witness_RxclrCommandResult : held.rxLen.toNat ≤ 7 := by decide

theorem witness_RaisedErrorChangesOnlyErr :
    look (exec .extract State.reset) (fun t => decide (t.err ≠ .none)) = some true ∧
    look (issue 0x00000007 State.reset) (fun t => decide (t.err ≠ .none)) = some true := by decide

theorem witness_EveryCommandWritesErr :
    exec .nop State.reset = .next State.reset ∧
    exec .extract State.reset = .next { State.reset with err := .nullFrame } := ⟨by rfl, by rfl⟩

/-- A command that stores, and a push at capacity and an oversized BUILD, which store nothing. -/
theorem witness_CommandsWriteOnlyTheirColumns :
    exec .nop State.reset = .next State.reset ∧
    look (exec .build (inst [] 0 [0x48])) (fun t => (t.err, t.txfrm.read 6)) = some (.none, none) ∧
    look (exec (.rxpush 0x5A) { State.resetOf tinyConfig with rxLen := 4 }) (fun t => t.err) =
      some .rxOverflow ∧
    look (exec (.txpush 0x5A) { State.resetOf tinyConfig with txpLen := 1 }) (fun t => t.err) =
      some .txOverflow ∧
    look (exec .rxaccept held) (fun t => t.rxbuf.read 0) = some none := by
  refine ⟨by rfl, ?_⟩
  decide

theorem inRange_held : InRange held := by constructor <;> decide

/-- The first and last reserved numbers, a host read, and a state with a held frame in its ranges. -/
theorem witness_StatusAndRegisterReads :
    19 ≤ (19 : BitVec 5).toNat ∧ 19 ≤ (31 : BitVec 5).toNat ∧
    step { State.reset with pending := [.regRead 0] } =
      .next { State.reset with answer := some (.word 0) } ∧ Inv held ∧ InRange held :=
  ⟨by decide, by decide, by rfl, inv_held, inRange_held⟩

theorem witness_ConfigurationIsReadOnly :
    step State.reset = .next State.reset ∧ 1 < (Config.reference 0).sync.length := ⟨by rfl, by decide⟩

/-- The last byte of a valid prefix and the first past it, in each space. -/
theorem witness_MemReadFollowsValidPrefix :
    6 < held.rx.length ∧ held.rxLen.toNat ≤ 7 ∧ 0 < (inst [] 0 [0x48]).txp.length ∧
    (inst [] 0 [0x48]).txpLen.toNat ≤ 1 ∧
    4 < ({ State.reset with txfLen := 5 } : State).txf.length ∧ held.txfLen.toNat ≤ 0 ∧
    held.cfg.syncLen ≤ 2 := by decide

theorem witness_HostReadsHaveNoSideEffect :
    (∃ n, HostMove.regRead 0 = .regRead n) ∧ ∃ space addr, HostMove.memRead 4 9 = .memRead space addr :=
  ⟨⟨0, rfl⟩, ⟨4, 9, rfl⟩⟩

theorem witness_ResetClearsRegisters : (14 : BitVec 5).toNat ≤ 14 := by decide

theorem witness_ResetMeetsInvariants :
    look (step { held with pending := [.reset] }) (fun t => t.rxLen) = some 0 := by decide

theorem witness_StepKeepsInvariant : Inv held ∧ step held = .next held := ⟨inv_held, by rfl⟩

theorem witness_StepKeepsRegisterRanges : Inv held ∧ InRange held ∧ step held = .next held :=
  ⟨inv_held, inRange_held, by rfl⟩

theorem witness_StepKeepsMemories :
    (held.rxbuf.wf ∧ held.txpay.wf ∧ held.txfrm.wf) ∧ Inv held ∧ MemInv held ∧
    step held = .next held := by
  refine ⟨by decide, inv_held, ?_, by rfl⟩
  constructor
  case rxbuf_held =>
    intro a ha
    have h : a < 7 := ha
    interval_cases a <;> rfl
  all_goals decide

theorem witness_ReachableStatesMeetInvariants :
    Reachable (Config.reference 0) { State.resetOf (Config.reference 0) with pending := [.issue 0x506] } :=
  .start _

theorem witness_StepAlwaysAnswersNext : Inv held := inv_held

theorem witness_ChannelLengths :
    slipLegal (8 * 1) (.deleteBit 7) = true ∧ slipLegal (8 * 0) (.deleteBit 0) = true ∧
    slipLegal (8 * 1) (.insertBit 8 true) = true := by decide

theorem witness_OneBitSlipDestroysReferenceSync :
    8 ≤ 8 * [(0x00 : Byte)].length ∧ 7 < 8 * [(0x00 : Byte)].length := by decide

end Sys2Proof.Tests
end

section
/-! What each command answers when it answers next, said once (30_encoding.md R115): the provers cite
these and unfold no command. -/

namespace Sys2Proof.Machine

variable {s t : State}

/-- FIND reports the first window within the budget, or that there is none (41_pattern_locator.md R155). -/
theorem execFind_cases (h : execFind s = .next t) :
    (find s.rx s.cfg.sync s.cfg.maxBitErrors = none ∧ t = { s with found := false, idx := 0 }.done) ∨
    ∃ i, find s.rx s.cfg.sync s.cfg.maxBitErrors = some i ∧
      t = { s with found := true, idx := word i }.done := by
  unfold execFind at h
  split at h
  next hf => exact .inl ⟨hf, (Host.Outcome.next.inj h).symm⟩
  next i hf => exact .inr ⟨i, hf, (Host.Outcome.next.inj h).symm⟩

/-- PARSE raises the error of parse or writes what it returns (42_frame_codec.md R174). -/
theorem execParse_cases {off : Nat} (h : execParse off s = .next t) :
    (∃ e, parse (view s.rx off) s.cfg.syncLen = .error e ∧ t = s.raise e) ∨
    ∃ p, parse (view s.rx off) s.cfg.syncLen = .ok p ∧
      t = { s with
        length := word p.length
        payOff := word (off + s.cfg.syncLen + 2)
        payLen := word p.length
        csumRx := word p.checksum.toNat }.done := by
  unfold execParse at h
  split at h
  next e hp => exact .inl ⟨e, hp, (Host.Outcome.next.inj h).symm⟩
  next p hp => exact .inr ⟨p, hp, (Host.Outcome.next.inj h).symm⟩

/-- EXTRACT names the payload of the held frame, or raises NullFrame (R179). -/
theorem execExtract_cases (h : execExtract s = .next t) :
    (s.frmValid = false ∧ t = s.raise .nullFrame) ∨
    (s.frmValid = true ∧
      t = { s with
        payOff := word (s.frmOff.toNat + s.cfg.syncLen + 2)
        payLen := word (s.frmLen.toNat - s.cfg.syncLen - 3) }.done) := by
  unfold execExtract at h
  split at h
  next hv => exact .inr ⟨hv, (Host.Outcome.next.inj h).symm⟩
  next hv => exact .inl ⟨Bool.eq_false_of_not_eq_true hv, (Host.Outcome.next.inj h).symm⟩

/-- BUILD raises the error of build or stores the frame (R168). -/
theorem execBuild_cases (h : execBuild s = .next t) :
    (∃ e, build s.cfg.sync s.txp = .error e ∧ t = s.raise e) ∨
    ∃ f, build s.cfg.sync s.txp = .ok f ∧
      t = { s with txfrm := s.txfrm.writeBytes 0 f, txfLen := word f.length }.done := by
  unfold execBuild at h
  split at h
  next e hb => exact .inl ⟨e, hb, (Host.Outcome.next.inj h).symm⟩
  next f hb => exact .inr ⟨f, hb, (Host.Outcome.next.inj h).symm⟩

/-- RXPUSH overflows at capacity and stores the byte below it (44_buffer_commands.md R236). -/
theorem execRxpush_cases {b : Byte} (h : execRxpush b s = .next t) :
    (s.rxLen.toNat = s.cfg.rxCap ∧ t = s.raise .rxOverflow) ∨
    (s.rxLen.toNat < s.cfg.rxCap ∧
      t = { s with rxbuf := s.rxbuf.write s.rxLen.toNat b, rxLen := s.rxLen + 1 }.done) := by
  unfold execRxpush at h
  obtain ⟨hc, hp⟩ | ⟨-, hp⟩ | ⟨hc, hp⟩ := pushByte_cases s.rxbuf s.cfg.rxCap s.rxLen b <;>
    rw [hp] at h
  · exact .inl ⟨hc, (Host.Outcome.next.inj h).symm⟩
  · cases h
  · exact .inr ⟨hc, (Host.Outcome.next.inj h).symm⟩

/-- TXPUSH overflows at capacity and stores the byte below it (R249). -/
theorem execTxpush_cases {b : Byte} (h : execTxpush b s = .next t) :
    (s.txpLen.toNat = s.cfg.txpCap ∧ t = s.raise .txOverflow) ∨
    (s.txpLen.toNat < s.cfg.txpCap ∧
      t = { s with txpay := s.txpay.write s.txpLen.toNat b, txpLen := s.txpLen + 1 }.done) := by
  unfold execTxpush at h
  obtain ⟨hc, hp⟩ | ⟨-, hp⟩ | ⟨hc, hp⟩ := pushByte_cases s.txpay s.cfg.txpCap s.txpLen b <;>
    rw [hp] at h
  · exact .inl ⟨hc, (Host.Outcome.next.inj h).symm⟩
  · cases h
  · exact .inr ⟨hc, (Host.Outcome.next.inj h).symm⟩

/-- No command writes the configuration (10_state.md R31). -/
theorem exec_cfg {i : Instr} (h : exec i s = .next t) : t.cfg = s.cfg := by
  cases i with
  | nop | cnt | recover | rxaccept | rxdrop | rxclr | txclr =>
    obtain rfl := Host.Outcome.next.inj h
    rfl
  | find => obtain ⟨-, rfl⟩ | ⟨i, -, rfl⟩ := execFind_cases h <;> rfl
  | parse off => obtain ⟨e, -, rfl⟩ | ⟨p, -, rfl⟩ := execParse_cases h <;> rfl
  | extract => obtain ⟨-, rfl⟩ | ⟨-, rfl⟩ := execExtract_cases h <;> rfl
  | build => obtain ⟨e, -, rfl⟩ | ⟨f, -, rfl⟩ := execBuild_cases h <;> rfl
  | rxpush b => obtain ⟨-, rfl⟩ | ⟨-, rfl⟩ := execRxpush_cases h <;> rfl
  | txpush b => obtain ⟨-, rfl⟩ | ⟨-, rfl⟩ := execTxpush_cases h <;> rfl

/-- No move of the host changes the configuration, reset included (R31, 70_reset_and_hazards.md R310). -/
theorem step_cfg (h : step s = .next t) : t.cfg = s.cfg := by
  obtain ⟨-, rfl⟩ | ⟨mv, rest, -, hmove⟩ := step_cases s t h
  · rfl
  · obtain ⟨w, i, -, -, hexec⟩ | ⟨w, e, -, -, rfl⟩ | ⟨n, -, rfl⟩ | ⟨space, addr, -, rfl⟩ | ⟨-, rfl⟩ :=
      hmove
    · exact (exec_cfg hexec).trans rfl
    all_goals rfl

/-- A host read consumes its move and records an answer; nothing else (20_memory.md R79). -/
theorem step_hostRead {mv : HostMove} {rest : List HostMove} (hissue : ∀ w, mv ≠ .issue w)
    (hreset : mv ≠ .reset) (h : step { s with pending := mv :: rest } = .next t) :
    ∃ a, t = { s with pending := rest, answer := some a } := by
  rw [step_cons _ mv rest rfl] at h
  cases mv with
  | issue w => exact absurd rfl (hissue w)
  | reset => exact absurd rfl hreset
  | regRead n => exact ⟨_, (Host.Outcome.next.inj h).symm⟩
  | memRead space addr => exact ⟨_, (Host.Outcome.next.inj h).symm⟩

end Sys2Proof.Machine
end

section
/-! What the host reads: STATUS flag by flag (10_state.md R34), the configuration registers (R31), the
registers by number (R32), and a memory below its valid length (20_memory.md R80). -/

namespace Sys2Proof.Machine

/-- Seven errors: the code fits in the 4 bits of its field (60_exceptions.md R276). -/
theorem Err.code_le (e : Err) : e.code ≤ 6 := by cases e <;> decide

/-- Six outcomes: the code fits in the 3 bits of its field (30_encoding.md R120). -/
theorem RecoverOutcome.code_le (o : RecoverOutcome) : o.code ≤ 5 := by cases o <;> decide

section
variable (e : Err) (o : RecoverOutcome) (found frmValid : Bool)

/-- The flags packed into STATUS stay far below 2^32, so nothing is cut off (R34). -/
theorem statusWord_toNat : (statusWord e o found frmValid).toNat =
    e.code + 16 * o.code + 256 * found.toNat + 512 * frmValid.toNat := by
  have := e.code_le
  have := o.code_le
  have := found.toNat_le
  have := frmValid.toNat_le
  rw [statusWord, BitVec.toNat_ofNat]
  exact Nat.mod_eq_of_lt (by omega)

theorem statusWord_err :
    ((statusWord e o found frmValid).extractLsb' 0 4).toNat = e.code := by
  have := e.code_le
  rw [BitVec.extractLsb'_toNat, statusWord_toNat, Nat.shiftRight_eq_div_pow]
  omega

theorem statusWord_outcome :
    ((statusWord e o found frmValid).extractLsb' 4 3).toNat = o.code := by
  have := e.code_le
  have := o.code_le
  rw [BitVec.extractLsb'_toNat, statusWord_toNat, Nat.shiftRight_eq_div_pow]
  omega

theorem statusWord_bit7 : (statusWord e o found frmValid).getLsbD 7 = false := by
  have := e.code_le
  have := o.code_le
  rw [BitVec.getLsbD, statusWord_toNat, Nat.testBit_eq_decide_div_mod_eq, decide_eq_false_iff_not]
  omega

theorem statusWord_found : (statusWord e o found frmValid).getLsbD 8 = found := by
  have := e.code_le
  have := o.code_le
  rw [BitVec.getLsbD, statusWord_toNat, Nat.testBit_eq_decide_div_mod_eq]
  cases found with
  | false => exact decide_eq_false (by simp only [Bool.toNat_false]; omega)
  | true => exact decide_eq_true (by simp only [Bool.toNat_true]; omega)

theorem statusWord_frmValid : (statusWord e o found frmValid).getLsbD 9 = frmValid := by
  have := e.code_le
  have := o.code_le
  have := found.toNat_le
  rw [BitVec.getLsbD, statusWord_toNat, Nat.testBit_eq_decide_div_mod_eq]
  cases frmValid with
  | false => exact decide_eq_false (by simp only [Bool.toNat_false]; omega)
  | true => exact decide_eq_true (by simp only [Bool.toNat_true]; omega)

theorem statusWord_high : (statusWord e o found frmValid).extractLsb' 10 22 = 0 := by
  have := e.code_le
  have := o.code_le
  have := found.toNat_le
  have := frmValid.toNat_le
  refine BitVec.eq_of_toNat_eq (Eq.trans ?_ BitVec.toNat_zero.symm)
  rw [BitVec.extractLsb'_toNat, statusWord_toNat, Nat.shiftRight_eq_div_pow]
  omega

end

variable (s : State)

/-- A number below 2^32 reads back from a register whole. -/
theorem word_toNat_of_lt {n : Nat} (h : n < 4294967296) : (word n).toNat = n := by
  rw [BitVec.toNat_ofNat]
  exact Nat.mod_eq_of_lt h

theorem regRead_syncLen : (regRead s 15).toNat = s.cfg.syncLen :=
  word_toNat_of_lt (Nat.lt_of_le_of_lt s.cfg.syncBounded (by decide))

theorem regRead_maxBitErrors : (regRead s 16).toNat = s.cfg.maxBitErrors :=
  word_toNat_of_lt s.cfg.maxBitErrorsBounded

theorem regRead_rxCap : (regRead s 17).toNat = s.cfg.rxCap :=
  word_toNat_of_lt (Nat.lt_of_le_of_lt s.cfg.rxCapBounded (by decide))

theorem regRead_txpCap : (regRead s 18).toNat = s.cfg.txpCap :=
  word_toNat_of_lt (Nat.lt_of_le_of_lt s.cfg.txpCapBounded (by decide))

/-- Register numbers 19 to 31 are reserved (R32). -/
theorem regRead_reserved (n : BitVec 5) (h : 19 ≤ n.toNat) : regRead s n = 0 := by
  obtain ⟨k, hk⟩ := Nat.exists_eq_add_of_le' h
  simp only [regRead, hk]

/-- No register shows the host's moves or the last answer. -/
theorem regRead_hostFields (moves : List HostMove) (a : Option Answer) (n : BitVec 5) :
    regRead { s with pending := moves, answer := a } n = regRead s n := rfl

/-- A claim about every register whose number is in a list, number by number. -/
theorem forall_register {P : BitVec 5 → Prop} {numbers : List Nat}
    (h : numbers.Forall fun k => P (BitVec.ofNat 5 k)) (n : BitVec 5) (hn : n.toNat ∈ numbers) :
    P n := by
  simpa only [BitVec.ofNat_toNat, BitVec.setWidth_eq] using List.forall_iff_forall_mem.1 h n.toNat hn

/-- The number of a space names the space (20_memory.md R70). -/
theorem spaceOfNumber_number (sp : Space) : spaceOfNumber sp.number = some sp := by
  cases sp <;> rfl

/-- Below the valid length of a space a host read gives the byte a command would read there (R80). -/
theorem memRead_of_lt_validLen {sp : Space} {a : Nat} (h : a < s.validLen sp) :
    memRead s sp.number a = s.readByte sp a := by
  simp only [memRead, spaceOfNumber_number, if_pos h]

/-- SYNCROM holds the sync pattern (R73). -/
theorem readByte_syncrom {j : Nat} (h : j < s.cfg.sync.length) :
    s.readByte .syncrom j = s.cfg.sync[j] := by
  simp only [State.readByte, State.held, List.getElem?_eq_getElem h, Option.getD_some]

end Sys2Proof.Machine
end

section
/-! The statements of 10_state.md's family: what the host reads of the registers, and that the
configuration is read-only. -/

namespace Sys2Proof.Machine

/-- Settles O49: no arm of a step writes the configuration, whose ranges all fit in a register. -/
theorem configurationIsReadOnly : Obligations.ConfigurationIsReadOnly :=
  ⟨fun _ _ h => step_cfg h,
    fun s => ⟨regRead_syncLen s, regRead_maxBitErrors s, regRead_rxCap s, regRead_txpCap s⟩,
    fun s _ h => (memRead_of_lt_validLen s (sp := .syncrom) h).trans (readByte_syncrom s h)⟩

/-- A host read writes no register (R32). -/
theorem regRead_after_hostRead {s t : State} {mv : HostMove} {rest : List HostMove}
    (hissue : ∀ w, mv ≠ .issue w) (hreset : mv ≠ .reset)
    (h : step { s with pending := mv :: rest } = .next t) (n : BitVec 5) :
    regRead t n = regRead s n := by
  obtain ⟨a, rfl⟩ := step_hostRead hissue hreset h
  exact regRead_hostFields s rest (some a) n

/-- Settles O48: STATUS flag by flag from the bounds on the two codes; the other registers by number;
the ranges from the invariants and from the configuration's own bounds. -/
theorem statusAndRegisterReads : Obligations.StatusAndRegisterReads := by
  intro s
  refine ⟨statusWord_toNat .., statusWord_err .., statusWord_outcome .., statusWord_bit7 ..,
    statusWord_found .., statusWord_frmValid .., statusWord_high .., rfl, ?configuration,
    regRead_reserved s, fun _ _ _ hissue hreset h => regRead_after_hostRead hissue hreset h, ?ranges⟩
  case configuration =>
    simp only [List.map_cons, List.map_nil, regRead_syncLen, regRead_maxBitErrors, regRead_rxCap,
      regRead_txpCap]
  case ranges =>
    intro hinv hrange
    rw [regRead_syncLen, regRead_maxBitErrors, regRead_rxCap, regRead_txpCap]
    exact ⟨forall_register ⟨hrange.cnt_le, hrange.csumDist_le⟩,
      forall_register ⟨hrange.idx_lt, hrange.frmOff_lt⟩,
      forall_register ⟨hrange.length_le, hrange.payLen_le⟩,
      forall_register ⟨hrange.csumRx_le, hrange.csumCalc_le⟩,
      forall_register ⟨hrange.frmLen_range, hrange.txfLen_range⟩,
      forall_register ⟨hrange.remOff_le, hrange.payOff_le, hinv.rxLen_le⟩,
      hinv.txpLen_le, ⟨s.cfg.syncNonempty, s.cfg.syncBounded⟩,
      Nat.le_of_lt_succ s.cfg.maxBitErrorsBounded, ⟨s.cfg.rxCapHoldsFrame, s.cfg.rxCapBounded⟩,
      s.cfg.txpCapPositive, s.cfg.txpCapBounded⟩

end Sys2Proof.Machine
end

section
/-! The statement of 20_memory.md's family: a host read has no side effect (R79). -/

namespace Sys2Proof.Machine

section
variable (s : State)

/-- No memory holds the host's moves or the last answer; unspecified bytes follow the epoch alone,
which a read leaves as it was (20_memory.md R79). -/
theorem memRead_hostFields (moves : List HostMove) (a : Option Answer) (space addr : Nat) :
    memRead { s with pending := moves, answer := a } space addr = memRead s space addr := rfl

/-- `RegRead(n)` as a step: the move is consumed, the register's value is the answer. -/
theorem step_regRead (n : BitVec 5) (rest : List HostMove) :
    step { s with pending := .regRead n :: rest } =
      .next { s with pending := rest, answer := some (.word (regRead s n)) } :=
  step_cons { s with pending := .regRead n :: rest } (.regRead n) rest rfl

/-- `MemRead(space, addr, 1)` as a step: the move is consumed, the byte is the answer. -/
theorem step_memRead (space addr : Nat) (rest : List HostMove) :
    step { s with pending := .memRead space addr :: rest } =
      .next { s with pending := rest, answer := some (.byte (memRead s space addr)) } :=
  step_cons { s with pending := .memRead space addr :: rest } (.memRead space addr) rest rfl

end

/-- Settles O51, one case per read: a step of either is known in full, and neither of the two fields
it writes is seen by a later read. -/
theorem hostReadsHaveNoSideEffect : Obligations.HostReadsHaveNoSideEffect := by
  rintro s mv rest (⟨n, rfl⟩ | ⟨space, addr, rfl⟩)
  case inl =>
    refine ⟨_, step_regRead s n rest, rfl, ?_, nofun, regRead_hostFields s rest _,
      memRead_hostFields s rest _⟩
    rintro _ ⟨⟩
    rfl
  case inr =>
    refine ⟨_, step_memRead s space addr rest, rfl, nofun, ?_, regRead_hostFields s rest _,
      memRead_hostFields s rest _⟩
    rintro _ _ ⟨⟩
    rfl

end Sys2Proof.Machine
end

section
/-! The command word as the decoder reads it (30_encoding.md R110 to R116), in numbers: the opcode is
the remainder by 256, a format's must-be-zero bits are the quotient above its immediates, and a row of
the opcode map has the opcode and the format of its command. -/

namespace Sys2Proof

/-- The lowest bit from which every bit of a word of this format is marked "0" (R111). -/
def Format.zeroFrom : Format → Nat
  | .z => 8
  | .b => 16
  | .bb => 24
  | .l => 32

/-- The opcodes of the rows that have this format (R115). -/
def Format.opcodes : Format → List Nat
  | .z => [0, 2, 4, 5, 9, 11, 13]
  | .b => [8, 12]
  | .bb => [1]
  | .l => [3, 6, 10]

theorem Format.exists_iff {P : Format → Prop} : (∃ f, P f) ↔ P .z ∨ P .b ∨ P .bb ∨ P .l := by
  constructor
  · rintro ⟨f, hf⟩
    cases f with
    | z => exact .inl hf
    | b => exact .inr (.inl hf)
    | bb => exact .inr (.inr (.inl hf))
    | l => exact .inr (.inr (.inr hf))
  · rintro (h | h | h | h) <;> exact ⟨_, h⟩

/-- The must-be-zero bits of a format are all the bits from `zeroFrom` on. -/
theorem Format.mustBeZero_eq_shiftLeft (f : Format) :
    f.mustBeZero = BitVec.allOnes 32 <<< f.zeroFrom := by
  cases f <;> rfl

/-- Clearing the bits below `zeroFrom` leaves 0 exactly when nothing stands above them (R113). -/
theorem Format.and_mustBeZero_eq_zero_iff (f : Format) (w : Word) :
    w &&& f.mustBeZero = 0 ↔ w.toNat / 2 ^ f.zeroFrom = 0 := by
  have hle : w.toNat / 2 ^ f.zeroFrom * 2 ^ f.zeroFrom < 2 ^ 32 :=
    Nat.lt_of_le_of_lt (Nat.div_mul_le_self ..) w.isLt
  have hpos : 2 ^ f.zeroFrom ≠ 0 := Nat.two_pow_pos _ |>.ne'
  rw [f.mustBeZero_eq_shiftLeft, ← BitVec.shiftLeft_ushiftRight, ← BitVec.toNat_inj,
    BitVec.toNat_shiftLeft, BitVec.toNat_ushiftRight, Nat.shiftLeft_eq, Nat.shiftRight_eq_div_pow,
    Nat.mod_eq_of_lt hle]
  exact Nat.mul_eq_zero.trans (or_iff_left hpos)

theorem opcodeField_eq_mod (w : Word) : opcodeField w = w.toNat % 256 := by
  rw [opcodeField, BitVec.extractLsb'_toNat, Nat.shiftRight_zero]

/-- The reserved opcodes (R116). -/
theorem opcodeRow_eq_none_iff (op : Nat) (w : Word) : opcodeRow op w = none ↔ op = 7 ∨ 14 ≤ op := by
  fun_cases opcodeRow op w with
  | case14 =>
    simp only [imp_false, true_iff] at *
    omega
  | _ => simp

/-- A row of the opcode map has the opcode and the format of its command (R111, R115). -/
theorem opcode_format_of_opcodeRow {op : Nat} {w : Word} {f : Format} {i : Instr}
    (h : opcodeRow op w = some (f, i)) : i.opcode = op ∧ i.format = f := by
  revert h
  fun_cases opcodeRow op w <;> rintro ⟨⟩ <;> exact ⟨rfl, rfl⟩

theorem Instr.opcode_mem_opcodes (i : Instr) : i.opcode ∈ i.format.opcodes := by
  cases i <;> simp [Instr.opcode, Instr.format, Format.opcodes]

/-- The format column of the opcode map (R115). -/
theorem exists_opcodeRow_format_iff (op : Nat) (w : Word) (f : Format) :
    (∃ i, opcodeRow op w = some (f, i)) ↔ op ∈ f.opcodes := by
  constructor
  · rintro ⟨i, h⟩
    obtain ⟨rfl, rfl⟩ := opcode_format_of_opcodeRow h
    exact i.opcode_mem_opcodes
  · revert op
    cases f <;> simp [Format.opcodes, opcodeRow]

/-- A word whose opcode has no row is illegal (R116). -/
theorem decode_of_opcodeRow_none {w : Word} (h : opcodeRow (w.toNat % 256) w = none) :
    decode w = .error .reservedOpcode := by
  rw [decode, opcodeField_eq_mod, h]

/-- A word whose opcode has a row is the row's command when nothing stands above its immediates
(R113). -/
theorem decode_of_opcodeRow_some {w : Word} {f : Format} {i : Instr}
    (h : opcodeRow (w.toNat % 256) w = some (f, i)) :
    decode w = if w.toNat / 2 ^ f.zeroFrom = 0 then .ok i else .error .mustBeZeroSet := by
  rw [decode, opcodeField_eq_mod, h]
  exact if_congr (f.and_mustBeZero_eq_zero_iff w) rfl rfl

/-- A word is illegal when its opcode has no row, or when a bit is set that its row's format marks "0"
(R113). -/
theorem exists_decode_error_iff (w : Word) :
    (∃ e, decode w = .error e) ↔ opcodeRow (w.toNat % 256) w = none ∨
      ∃ f, (∃ i, opcodeRow (w.toNat % 256) w = some (f, i)) ∧ w.toNat / 2 ^ f.zeroFrom ≠ 0 := by
  constructor
  · rintro ⟨e, herror⟩
    cases hrow : opcodeRow (w.toNat % 256) w with
    | none => exact .inl rfl
    | some row =>
      refine .inr ⟨row.1, ⟨row.2, rfl⟩, fun hzero => ?_⟩
      rw [decode_of_opcodeRow_some hrow, if_pos hzero] at herror
      cases herror
  · rintro (hnone | ⟨f, ⟨i, hrow⟩, hhigh⟩)
    · exact ⟨_, decode_of_opcodeRow_none hnone⟩
    · exact ⟨_, (decode_of_opcodeRow_some hrow).trans (if_neg hhigh)⟩

/-- A word that decodes has its command's opcode and nothing above the immediates of its command's
format (R113). -/
theorem opcode_zeroFrom_of_decode {w : Word} {i : Instr} (h : decode w = .ok i) :
    w.toNat % 256 = i.opcode ∧ w.toNat / 2 ^ i.format.zeroFrom = 0 := by
  cases hrow : opcodeRow (w.toNat % 256) w with
  | none => cases (decode_of_opcodeRow_none hrow).symm.trans h
  | some row =>
    rw [decode_of_opcodeRow_some hrow] at h
    split at h
    next hzero =>
      obtain rfl := Except.ok.inj h
      obtain ⟨hop, hformat⟩ := opcode_format_of_opcodeRow hrow
      exact ⟨hop.symm, hformat ▸ hzero⟩
    next => cases h

end Sys2Proof
end

section
/-! The statement of 30_encoding.md's family on illegal words (R116, R282). -/

namespace Sys2Proof.Machine

/-- The illegal words, one clause for the reserved opcodes and one per format (R111, R116). Format L has
no must-be-zero bit, so it contributes none. -/
theorem exists_decode_error_iff_numbers (w : Word) : (∃ e, decode w = .error e) ↔
    (w.toNat % 256 = 7 ∨ 14 ≤ w.toNat % 256) ∨
    (w.toNat % 256 ∈ [0, 2, 4, 5, 9, 11, 13] ∧ w.toNat / 256 ≠ 0) ∨
    (w.toNat % 256 ∈ [8, 12] ∧ w.toNat / 65536 ≠ 0) ∨
    (w.toNat % 256 = 1 ∧ w.toNat / 16777216 ≠ 0) := by
  have hl : ¬ (w.toNat % 256 ∈ Format.l.opcodes ∧ w.toNat / 2 ^ Format.l.zeroFrom ≠ 0) :=
    fun h => h.2 (Nat.div_eq_of_lt w.isLt)
  rw [exists_decode_error_iff, opcodeRow_eq_none_iff]
  simp only [exists_opcodeRow_format_iff]
  rw [Format.exists_iff, or_iff_left hl, ← List.mem_singleton (a := w.toNat % 256) (b := 1)]
  rfl

/-- Issuing an illegal word as a step: the move is consumed, the epoch advances, ERR holds
IllegalCommand (R282). -/
theorem step_issue_of_decode_error {w : Word} {e : IllegalWord} (h : decode w = .error e)
    (rest : List HostMove) (s : State) :
    step { s with pending := .issue w :: rest } =
      .next { s with pending := rest, epoch := s.epoch + 1, err := .illegalCommand } :=
  (step_cons _ (.issue w) rest rfl).trans (issue_error w e _ h)

/-- NOP has opcode 0 and format Z: its word has no bit set (R115). -/
theorem eq_zero_of_decode_nop {w : Word} (h : decode w = .ok .nop) : w = 0 := by
  obtain ⟨hlow, hhigh⟩ : w.toNat % 256 = 0 ∧ w.toNat / 256 = 0 := opcode_zeroFrom_of_decode h
  exact BitVec.eq_of_toNat_eq (show w.toNat = 0 by omega)

/-- Settles O4: the words by opcode and format, the step through `issue_error`, and NOP's word from its
row. -/
theorem reservedWordsRaiseIllegalCommand : Obligations.ReservedWordsRaiseIllegalCommand :=
  ⟨exists_decode_error_iff_numbers, fun _ _ rest s h => step_issue_of_decode_error h rest s,
    fun _ h => eq_zero_of_decode_nop h⟩

end Sys2Proof.Machine
end

section
/-! The bit error counter (40_bit_error_counter.md R140): the population count of `a xor b` is the number
of positions at which the bits differ, and the corner cases of R141 are read off that number. -/

namespace Sys2Proof.Machine

/-- Adding up the bits of a list of positions counts the positions whose bit is set. -/
theorem sum_map_toNat_eq_countP {α : Type} (p : α → Bool) (l : List α) :
    (l.map fun x => (p x).toNat).sum = l.countP p := by
  induction l with
  | nil => rfl
  | cons x xs ih =>
    rw [List.map_cons, List.sum_cons, ih, List.countP_cons]
    cases p x <;> simp [Nat.add_comm]

theorem popcount8_eq_countP (v : Byte) :
    popcount8 v = (List.range 8).countP fun k => v.getLsbD k :=
  sum_map_toNat_eq_countP _ _

/-- A bit of `a xor b` is set where the bits of `a` and `b` differ (R140). -/
theorem cnt_eq_countP (a b : Byte) :
    cnt a b = (List.range 8).countP fun k => a.getLsbD k != b.getLsbD k := by
  rw [cnt, popcount8_eq_countP]
  simp only [BitVec.getLsbD_xor, Bool.bne_eq_xor]

/-- There are 8 positions. -/
theorem cnt_le_eight (a b : Byte) : cnt a b ≤ 8 :=
  cnt_eq_countP a b ▸ List.countP_le_length

theorem cnt_comm (a b : Byte) : cnt a b = cnt b a := by
  rw [cnt, cnt, BitVec.xor_comm]

/-- No position differs from itself. -/
theorem cnt_self (a : Byte) : cnt a a = 0 := by
  rw [cnt_eq_countP, List.countP_eq_zero]
  exact fun k _ => by simp

/-- Every position differs from its complement. -/
theorem cnt_not (a : Byte) : cnt a (~~~a) = 8 := by
  have hdiffer : ∀ k ∈ List.range 8, (a.getLsbD k != (~~~a).getLsbD k) = true := fun k hk => by
    simp [List.mem_range.1 hk]
  rw [cnt_eq_countP, List.countP_eq_length.2 hdiffer, List.length_range]

/-- A register holds the count whole (10_state.md R33). -/
theorem word_cnt_toNat (a b : Byte) : (word (cnt a b)).toNat = cnt a b :=
  word_toNat_of_lt (Nat.lt_of_le_of_lt (cnt_le_eight a b) (by decide))

/-- NOP writes ERR only (R144). -/
theorem exec_nop (s : State) : exec .nop s = .next { s with err := .none } := rfl

/-- CNT writes its register and ERR (R141). -/
theorem exec_cnt (a b : Byte) (s : State) :
    exec (.cnt a b) s = .next { s with cnt := word (cnt a b), err := .none } := rfl

/-- The word of CNT with its two operands in their byte fields (30_encoding.md R112). -/
theorem encode_cnt (a b : Byte) :
    encode (.cnt a b) = word (1 + 256 * a.toNat + 65536 * b.toNat) := by
  have hnumber : 1 + 256 * (a.toNat + 256 * b.toNat) = 1 + 256 * a.toNat + 65536 * b.toNat := by
    omega
  exact congrArg word hnumber

end Sys2Proof.Machine
end

section
/-! The statements of 40_bit_error_counter.md's family. -/

namespace Sys2Proof.Machine

/-- Settles O7: NOP's word has no bit set, and its command ends at once. -/
theorem nopWritesErrOnly : Obligations.NopWritesErrOnly :=
  ⟨rfl, exec_nop⟩

/-- Settles O9: the population count of `a xor b` position by position. -/
theorem countIsNumberOfDifferingBits : Obligations.CountIsNumberOfDifferingBits :=
  fun a b => ⟨cnt_eq_countP a b, rfl, cnt_le_eight a b⟩

/-- Settles O8: the command's result in full, with a count that fits its register; the corner cases
from the number of differing positions. -/
theorem cntCommandResult : Obligations.CntCommandResult :=
  ⟨fun a b s => ⟨_, exec_cnt a b s, rfl, word_cnt_toNat a b⟩, encode_cnt,
    fun a b => ⟨cnt_self a, cnt_not a, cnt_comm a b⟩, by decide⟩

end Sys2Proof.Machine
end

section
/-! The pattern locator (41_pattern_locator.md section 1): the window total byte by byte (R150), the
comparison with the early abort (R154), and the search as two equivalences (R151 to R153). -/

namespace Sys2Proof.Machine

/-- The total of a window inside the buffer, byte by byte (R150). -/
theorem windowErr_eq_sum_range {buf pat : List Byte} {i : Nat} (h : i + pat.length ≤ buf.length) :
    windowErr buf pat i =
      ((List.range pat.length).map fun j => cnt (buf.getD (i + j) 0) (pat.getD j 0)).sum := by
  have hlength : pat.length ≤ (buf.drop i).length := by
    rw [List.length_drop]
    omega
  refine congrArg List.sum (List.ext_getElem ?length fun j hzip hrange => ?byte)
  case length =>
    rw [List.length_zipWith, List.length_map, List.length_range, Nat.min_eq_right hlength]
  case byte =>
    rw [List.length_map, List.length_range] at hrange
    rw [List.getElem_zipWith, List.getElem_drop, List.getElem_map, List.getElem_range,
      List.getD_eq_getElem _ _ hrange, List.getD_eq_getElem _ _ (by omega)]

/-- Each byte of the pattern adds at most its 8 bits to a window's total (40_bit_error_counter.md
R142 (a)). -/
theorem windowErr_le (buf pat : List Byte) (i : Nat) : windowErr buf pat i ≤ 8 * pat.length := by
  have hbyte : ∀ n ∈ List.zipWith cnt (buf.drop i) pat, n ≤ 8 := by
    rw [← List.map_uncurry_zip_eq_zipWith]
    exact List.forall_mem_map.2 fun p _ => cnt_le_eight p.1 p.2
  calc windowErr buf pat i
      ≤ (List.zipWith cnt (buf.drop i) pat).length * 8 := List.sum_le_card_nsmul _ _ hbyte
    _ ≤ 8 * pat.length := by
      rw [List.length_zipWith, Nat.mul_comm]
      exact Nat.mul_le_mul_left 8 (Nat.min_le_right ..)

/-- From a running total `t`, the early abort answers whether `t` and what is left of the window are
within the budget together: what is left only adds to a total that exceeds it (R154). -/
theorem windowMatchesEarly_eq_decide (e t : Nat) (bs ps : List Byte) :
    windowMatchesEarly e t bs ps = decide (t + (List.zipWith cnt bs ps).sum ≤ e) := by
  fun_induction windowMatchesEarly e t bs ps with
  | case1 t b bs p ps habort =>
    rw [List.zipWith_cons_cons, List.sum_cons]
    exact (decide_eq_false (by omega)).symm
  | case2 t b bs p ps _ ih => rw [ih, List.zipWith_cons_cons, List.sum_cons, Nat.add_assoc]
  | case3 bs t ps hend =>
    cases bs with
    | nil => rfl
    | cons b bs =>
      cases ps with
      | nil => rfl
      | cons p ps => exact absurd rfl (hend b bs p ps rfl)

section
variable {buf pat : List Byte} {e i : Nat}

/-- A buffer shorter than the pattern has no window (R153). -/
theorem find_of_length_lt (h : buf.length < pat.length) : find buf pat e = none := if_pos h

/-- With a buffer as long as the pattern, the windows are tried in order, the last one included
(R151). -/
theorem find_of_length_le (h : pat.length ≤ buf.length) :
    find buf pat e = (List.range (buf.length - pat.length + 1)).find?
      fun i => decide (windowErr buf pat i ≤ e) := if_neg (Nat.not_lt.2 h)

/-- The lowest window within the budget wins (R152). -/
theorem find_eq_some_iff : find buf pat e = some i ↔
    i + pat.length ≤ buf.length ∧ windowErr buf pat i ≤ e ∧
      ∀ k, k < i → e < windowErr buf pat k := by
  obtain hshort | hlong := Nat.lt_or_ge buf.length pat.length
  · rw [find_of_length_lt hshort]
    exact iff_of_false nofun fun ⟨hinside, _⟩ => by omega
  · have hwindow : i < buf.length - pat.length + 1 ↔ i + pat.length ≤ buf.length := by omega
    rw [find_of_length_le hlong, List.find?_range_eq_some]
    simp only [List.mem_range, hwindow, decide_eq_true_eq, Bool.not_eq_true', decide_eq_false_iff_not,
      Nat.not_le]
    exact and_left_comm

/-- No window is within the budget, or there is no window at all (R153). -/
theorem find_eq_none_iff : find buf pat e = none ↔
    buf.length < pat.length ∨ ∀ k, k + pat.length ≤ buf.length → e < windowErr buf pat k := by
  obtain hshort | hlong := Nat.lt_or_ge buf.length pat.length
  · exact iff_of_true (find_of_length_lt hshort) (.inl hshort)
  · have hwindow : ∀ k, k < buf.length - pat.length + 1 ↔ k + pat.length ≤ buf.length := by omega
    rw [find_of_length_le hlong, List.find?_range_eq_none, or_iff_right (Nat.not_lt.2 hlong)]
    simp only [hwindow, Bool.not_eq_true', decide_eq_false_iff_not, Nat.not_le]

/-- A budget of 8 bits a byte makes the first window match (R156 (h)). -/
theorem find_eq_zero_of_saturated (hbudget : 8 * pat.length ≤ e) (h : pat.length ≤ buf.length) :
    find buf pat e = some 0 :=
  find_eq_some_iff.2 ⟨by omega, (windowErr_le buf pat 0).trans hbudget, nofun⟩

end

section
variable {s : State}

/-- FIND without a match (R155). -/
theorem exec_find_of_none (h : find s.rx s.cfg.sync s.cfg.maxBitErrors = none) :
    exec .find s = .next { s with found := false, idx := 0, err := .none } := by
  rw [exec, execFind, h]
  rfl

/-- FIND with a match at index `i` (R155). -/
theorem exec_find_of_some {i : Nat} (h : find s.rx s.cfg.sync s.cfg.maxBitErrors = some i) :
    exec .find s = .next { s with found := true, idx := word i, err := .none } := by
  rw [exec, execFind, h]
  rfl

/-- A match in RX ends below 2^32, so IDX holds its index whole (10_state.md R33). -/
theorem word_toNat_of_find_rx {pat : List Byte} {e i : Nat} (h : find s.rx pat e = some i) :
    (word i).toNat = i := by
  obtain ⟨hinside, -⟩ := find_eq_some_iff.1 h
  rw [s.rx_length] at hinside
  exact word_toNat_of_lt (by have := s.rxLen.isLt; omega)

end

end Sys2Proof.Machine
end

section
/-! The statements of 41_pattern_locator.md's family. -/

namespace Sys2Proof.Machine

/-- Settles O11: the total byte by byte, and the search through the two equivalences of `find`. -/
theorem findReturnsFirstWindowWithinBudget : Obligations.FindReturnsFirstWindowWithinBudget :=
  ⟨fun _ _ _ => windowErr_eq_sum_range, fun _ _ _ _ => find_eq_some_iff,
    fun _ _ _ => find_eq_none_iff⟩

/-- Settles O14: the comparison starts with the running total 0. -/
theorem earlyAbortChangesNoResult : Obligations.EarlyAbortChangesNoResult := by
  intro buf pat e i
  rw [windowMatchesEarly_eq_decide, Nat.zero_add, windowErr]

/-- Settles O15: the word has opcode 2 and no immediate; the command's result by whether `find` gives a
match on RX, which a buffer shorter than the pattern rules out and a saturated budget puts at 0. -/
theorem findCommandResult : Obligations.FindCommandResult := by
  refine ⟨rfl, fun s => ?_⟩
  have hshort (h : s.rxLen.toNat < s.cfg.syncLen) :
      find s.rx s.cfg.sync s.cfg.maxBitErrors = none :=
    find_of_length_lt (s.rx_length.symm ▸ h)
  have hsaturated (hbudget : 8 * s.cfg.syncLen ≤ s.cfg.maxBitErrors)
      (hlong : s.cfg.syncLen ≤ s.rxLen.toNat) :
      find s.rx s.cfg.sync s.cfg.maxBitErrors = some 0 :=
    find_eq_zero_of_saturated hbudget (s.rx_length.symm ▸ hlong)
  cases hfind : find s.rx s.cfg.sync s.cfg.maxBitErrors with
  | none =>
    exact ⟨_, exec_find_of_none hfind, rfl, nofun, fun _ => ⟨rfl, rfl⟩, fun _ => rfl,
      fun hbudget hlong => nomatch hfind.symm.trans (hsaturated hbudget hlong)⟩
  | some i =>
    refine ⟨_, exec_find_of_some hfind, rfl, ?_, nofun,
      fun h => (nomatch hfind.symm.trans (hshort h)), fun hbudget hlong => ?_⟩
    · rintro _ ⟨⟩
      exact ⟨rfl, word_toNat_of_find_rx hfind⟩
    · obtain rfl := Option.some.inj (hfind.symm.trans (hsaturated hbudget hlong))
      exact ⟨rfl, rfl⟩

end Sys2Proof.Machine
end

section
/-! The frame codec, command by command (42_frame_codec.md): `build` by the length of the payload (R165),
`parse` by the length of its view (R171, R173) and on a frame laid out by position, and what BUILD, PARSE
and EXTRACT answer in each case (R168, R174, R179). -/

namespace Sys2Proof.Machine

section
variable {sync p f : List Byte}

/-- The length field counts to 65535 (R165). -/
theorem build_of_length_gt (h : 65535 < p.length) : build sync p = .error .payloadTooLarge := by
  obtain ⟨-, hb⟩ | ⟨hle, -⟩ := build_cases sync p
  · exact hb
  · omega

/-- Any other payload has a frame (R165). -/
theorem build_of_length_le (h : p.length ≤ 65535) :
    build sync p = .ok (sync ++ lengthField p.length ++ p ++ [csum p]) := by
  obtain ⟨hgt, -⟩ | ⟨-, hb⟩ := build_cases sync p
  · omega
  · exact hb

/-- The only error of `build` is PayloadTooLarge, and only a payload above 65535 bytes raises it (R165). -/
theorem build_eq_error_iff {e : Err} :
    build sync p = .error e ↔ 65535 < p.length ∧ e = .payloadTooLarge := by
  obtain ⟨hgt, hb⟩ | ⟨hle, hb⟩ := build_cases sync p <;> rw [hb]
  · exact ⟨fun h => ⟨hgt, (Except.error.inj h).symm⟩, fun ⟨_, he⟩ => he ▸ rfl⟩
  · exact ⟨nofun, fun ⟨hgt, _⟩ => by omega⟩

/-- A frame is its payload with SYNC_LEN + 3 bytes around it (R166 (a)). -/
theorem length_of_build (h : build sync p = .ok f) : f.length = sync.length + 3 + p.length := by
  obtain ⟨-, hb⟩ | ⟨-, hb⟩ := build_cases sync p <;> rw [hb] at h <;> cases h
  simp only [List.length_append, lengthField_length, List.length_singleton]
  omega

end

section
variable {v : List Byte} {n : Nat}

/-- The header bound is checked first (R173). -/
theorem parse_of_length_lt_header (h : v.length < n + 2) :
    parse v n = .error .insufficientData := if_pos h

/-- The declared frame does not fit the view (R173). -/
theorem parse_of_length_lt_total (hheader : n + 2 ≤ v.length)
    (h : v.length < totalSize n (headerLength v n)) : parse v n = .error .insufficientData := by
  obtain ⟨hlt, -⟩ | ⟨-, -, hp⟩ | ⟨-, hle, -⟩ := parse_cases v n
  · omega
  · exact hp
  · omega

/-- The declared frame fits the view: the fields by position (R171). -/
theorem parse_of_total_le (hheader : n + 2 ≤ v.length)
    (h : totalSize n (headerLength v n) ≤ v.length) :
    parse v n = .ok ⟨headerLength v n, (v.drop (n + 2)).take (headerLength v n),
      v.getD (totalSize n (headerLength v n) - 1) 0⟩ := by
  obtain ⟨hlt, -⟩ | ⟨-, hlt, -⟩ | ⟨-, -, hp⟩ := parse_cases v n
  · omega
  · omega
  · exact hp

end

/-- A byte of a view is the buffer's byte at the view's offset further on (20_memory.md R81). -/
theorem getD_view (buf : List Byte) (off i : Nat) (d : Byte) :
    (view buf off).getD i d = buf.getD (off + i) d := by
  rw [List.getD_eq_getElem?_getD, List.getD_eq_getElem?_getD, List.getElem?_drop]

/-- The length field of a view, at its place in the buffer (R171). -/
theorem headerLength_view (buf : List Byte) (off n : Nat) :
    headerLength (view buf off) n = be16 (buf.getD (off + n) 0) (buf.getD (off + n + 1) 0) := by
  rw [headerLength, getD_view, getD_view, Nat.add_assoc]

/-- The length field stands right after the sync region, whatever that region holds (R171, R172). -/
theorem headerLength_append (region rest : List Byte) (h l : Byte) :
    headerLength (region ++ h :: l :: rest) region.length = be16 h l := by
  rw [headerLength, List.getD_append_right _ _ _ _ (Nat.le_refl _),
    List.getD_append_right _ _ _ _ (Nat.le_succ _), Nat.sub_self, Nat.succ_sub (Nat.le_refl _),
    Nat.sub_self]
  rfl

/-- `parse` on a frame laid out field by field: the sync region and what follows the frame take no part in
the answer, and the checksum byte is returned as it is (R171, R172). -/
theorem parse_append (region span x : List Byte) (h l chk : Byte) (hspan : span.length = be16 h l) :
    parse (region ++ h :: l :: (span ++ chk :: x)) region.length = .ok ⟨be16 h l, span, chk⟩ := by
  have hlen := headerLength_append region (span ++ chk :: x) h l
  have hpayload : ((region ++ h :: l :: (span ++ chk :: x)).drop (region.length + 2)).take (be16 h l) =
      span := by
    rw [List.drop_length_add_append]
    exact List.take_left' hspan
  have hchecksum : (region ++ h :: l :: (span ++ chk :: x)).getD
      (totalSize region.length (be16 h l) - 1) 0 = chk := by
    rw [totalSize, ← hspan, List.getD_append_right _ _ _ _ (by omega),
      show region.length + 2 + span.length + 1 - 1 - region.length = span.length + 1 + 1 by omega,
      List.getD_cons_succ, List.getD_cons_succ, List.getD_append_right _ _ _ _ (Nat.le_refl _),
      Nat.sub_self, List.getD_cons_zero]
  rw [parse_of_total_le, hlen, hpayload, hchecksum]
  all_goals simp only [hlen, totalSize, List.length_append, List.length_cons]; omega

section
variable {s t : State}

/-- BUILD with a payload above 65535 bytes (R170). -/
theorem exec_build_of_gt (h : 65535 < s.txpLen.toNat) :
    exec .build s = .next { s with err := .payloadTooLarge } := by
  rw [exec, execBuild, build_of_length_gt (s.txp_length.symm ▸ h)]
  rfl

/-- BUILD with a payload that has a frame (R168). -/
theorem exec_build_of_ok {f : List Byte} (h : build s.cfg.sync s.txp = .ok f) :
    exec .build s = .next
      { s with txfrm := s.txfrm.writeBytes 0 f, txfLen := word f.length, err := .none } := by
  rw [exec, execBuild, h]
  rfl

/-- The length of the staged payload's frame (R168). -/
theorem length_of_build_txp {f : List Byte} (h : build s.cfg.sync s.txp = .ok f) :
    f.length = s.cfg.syncLen + 3 + s.txpLen.toNat :=
  (length_of_build h).trans (congrArg _ s.txp_length)

/-- A frame is far below 2^32 bytes, so TXF_LEN holds its length whole (10_state.md R33). -/
theorem word_toNat_of_build {f : List Byte} (h : build s.cfg.sync s.txp = .ok f) :
    (word f.length).toNat = f.length := by
  have hlength := length_of_build h
  have hsync := s.cfg.syncBounded
  obtain ⟨-, hb⟩ | ⟨hle, -⟩ := build_cases s.cfg.sync s.txp
  · exact nomatch hb.symm.trans h
  · exact word_toNat_of_lt (by omega)

/-- TXF after BUILD is the frame that `build` gives (R168). -/
theorem txf_of_exec_build {f : List Byte} (h : build s.cfg.sync s.txp = .ok f)
    (ht : exec .build s = .next t) : t.txf = f := by
  obtain rfl := Host.Outcome.next.inj ((exec_build_of_ok h).symm.trans ht)
  exact State.txf_writeBytes _ f s.txfrm rfl (word_toNat_of_build h)

/-- BUILD reads the staged payload and does not write it, so it may be repeated (R168). -/
theorem exec_build_again {f : List Byte} (h : build s.cfg.sync s.txp = .ok f)
    (ht : exec .build s = .next t) : ∃ u, exec .build t = .next u ∧ u.txf = t.txf := by
  have hkept : build t.cfg.sync t.txp = .ok f := by
    obtain rfl := Host.Outcome.next.inj ((exec_build_of_ok h).symm.trans ht)
    exact h
  exact ⟨_, exec_build_of_ok hkept,
    (txf_of_exec_build hkept (exec_build_of_ok hkept)).trans (txf_of_exec_build h ht).symm⟩

/-- PARSE with a view that `parse` refuses (R174). -/
theorem exec_parse_of_error {off : Nat} {e : Err} (h : parse (view s.rx off) s.cfg.syncLen = .error e) :
    exec (.parse off) s = .next { s with err := e } := by
  rw [exec, execParse, h]
  rfl

/-- PARSE with a view that holds a whole frame (R174). -/
theorem exec_parse_of_ok {off : Nat} {p : ParsedFrame}
    (h : parse (view s.rx off) s.cfg.syncLen = .ok p) :
    exec (.parse off) s = .next
      { s with
        length := word p.length
        payOff := word (off + s.cfg.syncLen + 2)
        payLen := word p.length
        csumRx := word p.checksum.toNat
        err := .none } := by
  rw [exec, execParse, h]
  rfl

/-- EXTRACT without a held frame (R179). -/
theorem exec_extract_of_not_frmValid (h : s.frmValid = false) :
    exec .extract s = .next { s with err := .nullFrame } := by
  rw [exec, execExtract, if_neg (Bool.eq_false_iff.1 h)]
  rfl

/-- EXTRACT with a held frame (R179). -/
theorem exec_extract_of_frmValid (h : s.frmValid = true) :
    exec .extract s = .next
      { s with
        payOff := word (s.frmOff.toNat + s.cfg.syncLen + 2)
        payLen := word (s.frmLen.toNat - s.cfg.syncLen - 3)
        err := .none } := by
  rw [exec, execExtract, if_pos h]
  rfl

/-- A host read below RX_LEN gives the byte of RX (20_memory.md R71, R80). -/
theorem memRead_rxbuf {a : Nat} (h : a < s.rxLen.toNat) : memRead s 0 a = s.rx.getD a 0 := by
  have hrx : a < s.rx.length := s.rx_length.symm ▸ h
  rw [List.getD_eq_getElem _ _ hrx]
  simp only [State.rx, State.bytes, List.getElem_map, List.getElem_range]
  exact memRead_of_lt_validLen s (sp := .rxbuf) h

end

/-- The payload of a frame that lies whole inside a buffer, as a span of the buffer (R177). -/
theorem extractPayload_slice (n off len : Nat) (buf : List Byte) (h : off + len ≤ buf.length) :
    extractPayload n (some ((buf.drop off).take len)) =
      .ok ((buf.drop (off + n + 2)).take (len - n - 3)) := by
  have hlength : ((buf.drop off).take len).length = len := by
    rw [List.length_take, List.length_drop]
    omega
  refine congrArg Except.ok ?_
  calc (((buf.drop off).take len).take (((buf.drop off).take len).length - 1)).drop (n + 2)
      = ((buf.drop off).take (len - 1)).drop (n + 2) := by
        rw [hlength, List.take_take, Nat.min_eq_left (Nat.sub_le len 1)]
    _ = ((buf.drop off).drop (n + 2)).take (len - 1 - (n + 2)) := List.drop_take
    _ = (buf.drop (off + n + 2)).take (len - n - 3) := by
        rw [List.drop_drop, Nat.add_assoc]
        congr 1
        omega

end Sys2Proof.Machine
end

section
/-! The statements of 42_frame_codec.md's family. -/

namespace Sys2Proof.Machine

/-- Settles O18: the frame is stored from address 0 and nothing past it; the staged payload is kept, so
a second BUILD stores the same frame. -/
theorem buildCommandResult : Obligations.BuildCommandResult := by
  refine ⟨rfl, fun s => exec_build_of_gt, fun s hle => ?_⟩
  obtain ⟨f, hf, hb⟩ : ∃ f, f = s.cfg.sync ++ lengthField s.txpLen.toNat ++ s.txp ++ [csum s.txp] ∧
      build s.cfg.sync s.txp = .ok f :=
    ⟨_, rfl, s.txp_length ▸ build_of_length_le (s.txp_length.symm ▸ hle)⟩
  have ht := exec_build_of_ok hb
  have htxf := txf_of_exec_build hb ht
  have hlength := length_of_build_txp hb
  refine ⟨_, ht, rfl, (word_toNat_of_build hb).trans hlength, htxf.trans hf,
    hb.trans (congrArg Except.ok htxf.symm), fun a ha => ?past, exec_build_again hb ht⟩
  case past =>
    rw [Memory.read_writeBytes, if_neg]
    omega

/-- Settles O19: BUILD raises what `build` raises, and `build` looks at the payload's length alone. -/
theorem buildPayloadTooLarge : Obligations.BuildPayloadTooLarge := by
  refine ⟨fun s => exec_build_of_gt, fun s t ht herr => ?raised, fun s t hcap hsmall ht => ?small⟩
  all_goals obtain ⟨e, hb, rfl⟩ | ⟨f, -, rfl⟩ := execBuild_cases ht
  case raised.inl => exact s.txp_length ▸ (build_eq_error_iff.1 hb).1
  case raised.inr => exact nomatch herr
  case small.inl =>
    have hgt := (build_eq_error_iff.1 hb).1
    rw [s.txp_length] at hgt
    omega
  case small.inr => rfl

/-- Settles O20: the two bounds in the order of R173, then a frame laid out field by field. -/
theorem parseReturnsFieldsByPosition : Obligations.ParseReturnsFieldsByPosition := by
  refine ⟨fun v n => parse_of_length_lt_header, fun v n => parse_of_length_lt_total, ?_⟩
  intro region h l span chk x hspan
  simpa only [List.append_assoc, List.cons_append, List.nil_append] using
    parse_append region span x h l chk hspan

/-- Settles O21: PARSE by the length of its view, whose bytes are those of RX at the offset; the view lies
inside RX, so no register is truncated. -/
theorem parseCommandResult : Obligations.ParseCommandResult := by
  refine ⟨fun _ => rfl, fun s off =>
    ⟨fun hshort => exec_parse_of_error (parse_of_length_lt_header hshort), fun len hheader hlen => ?_⟩⟩
  have htotal : totalSize s.cfg.syncLen (headerLength (view s.rx off) s.cfg.syncLen) =
      s.cfg.syncLen + 3 + len := by
    rw [headerLength_view, ← hlen, totalSize]
    omega
  refine ⟨fun hshort => ?short, fun hlong => ?whole⟩
  case short =>
    exact exec_parse_of_error (parse_of_length_lt_total hheader (htotal ▸ hshort))
  case whole =>
    have hp := parse_of_total_le hheader (htotal ▸ hlong)
    have hrx : s.rx.length < 4294967296 := s.rx_length ▸ s.rxLen.isLt
    rw [List.length_drop] at hheader hlong
    rw [htotal, headerLength_view, ← hlen, getD_view, ← Nat.add_sub_assoc (by omega)] at hp
    have hlenWhole : (word len).toNat = len := word_toNat_of_lt (by omega)
    have hoffWhole : (word (off + s.cfg.syncLen + 2)).toNat = off + s.cfg.syncLen + 2 :=
      word_toNat_of_lt (by omega)
    exact ⟨_, exec_parse_of_ok hp, rfl, hlenWhole, hoffWhole, hlenWhole,
      word_toNat_of_lt (Nat.lt_trans (BitVec.isLt _) (by decide))⟩

/-- Settles O22: under the invariant the held frame lies inside RX, so the two registers hold their values
whole and name a span of RX. -/
theorem extractCommandResult : Obligations.ExtractCommandResult := by
  refine ⟨rfl, fun s => exec_extract_of_not_frmValid, fun s hinv hvalid => ?_⟩
  have hsize := hinv.frame_size hvalid
  have hinside := hinv.frame_inside hvalid
  have hrx := s.rxLen.isLt
  have hoff : (word (s.frmOff.toNat + s.cfg.syncLen + 2)).toNat = s.frmOff.toNat + s.cfg.syncLen + 2 :=
    word_toNat_of_lt (by omega)
  have hlen : (word (s.frmLen.toNat - s.cfg.syncLen - 3)).toNat = s.frmLen.toNat - s.cfg.syncLen - 3 :=
    word_toNat_of_lt (by omega)
  refine ⟨_, exec_extract_of_frmValid hvalid, rfl, hoff, ?length, ?payload, ?reads, ?again⟩
  case length => rw [hlen]; omega
  case payload =>
    rw [hoff, hlen]
    exact extractPayload_slice _ _ _ _ (s.rx_length.symm ▸ hinside)
  case reads =>
    intro k hk
    rw [hlen] at hk
    rw [hoff]
    have hread : s.frmOff.toNat + s.cfg.syncLen + 2 + k < s.rxLen.toNat := by omega
    exact memRead_rxbuf hread
  case again => exact exec_extract_of_frmValid hvalid

end Sys2Proof.Machine
end

section
/-! The frame synchronizer (43_frame_synchronizer.md sections 1 and 2): the exit of recover past the search, by
the length of the sliced buffer and then by the checksum (R195), the triple of an exit, and the numbers an
exit carries, which all fit a register (R205). -/

namespace Sys2Proof.Machine

/-- A frame is longer than its header (30_encoding.md R101). -/
theorem header_lt_totalSize (n len : Nat) : n + 2 < totalSize n len := by
  rw [totalSize]
  omega

/-- The span between the header and the checksum byte is the payload, by position (R101). -/
theorem drop_take_payload (v : List Byte) (n len : Nat) :
    (v.take (totalSize n len - 1)).drop (n + 2) = (v.drop (n + 2)).take len := by
  rw [List.drop_take, totalSize, Nat.add_sub_cancel, Nat.add_sub_cancel_left]

section
variable {c : Config} {buf s : List Byte} {m i len : Nat} (hmin : m ≤ buf.length)
  (hfind : find buf c.sync c.maxBitErrors = some i) (hslice : s = buf.drop i)
include hmin hfind hslice

/-- Step (4): the minimum is checked again on the sliced buffer (R198). -/
theorem recoverExit_of_slice_lt_min (h : s.length < m) : recoverExit c buf m = .tooShortSliced i := by
  obtain ⟨-, he⟩ | ⟨hle, -⟩ | ⟨hle, -⟩ | ⟨hle, -⟩ :=
    recoverExit_found c buf s m i _ hmin hfind hslice rfl
  · exact he
  all_goals omega

variable (hrecheck : m ≤ s.length)
include hrecheck

/-- Step (5): the length field is not there (R199). -/
theorem recoverExit_of_slice_lt_header (h : s.length < c.syncLen + 2) :
    recoverExit c buf m = .incompleteHeader i := by
  have htotal := header_lt_totalSize c.syncLen (headerLength s c.syncLen)
  obtain ⟨hlt, -⟩ | ⟨-, -, he⟩ | ⟨-, hle, -⟩ | ⟨-, hle, -⟩ :=
    recoverExit_found c buf s m i _ hmin hfind hslice rfl
  case inr.inl => exact he
  all_goals omega

variable (hlen : len = headerLength s c.syncLen)
include hlen

/-- Step (6): the declared frame is not there whole (R199). -/
theorem recoverExit_of_slice_lt_total (hheader : c.syncLen + 2 ≤ s.length)
    (h : s.length < totalSize c.syncLen len) : recoverExit c buf m = .incompleteFrame i len := by
  obtain ⟨hlt, -⟩ | ⟨-, hlt, -⟩ | ⟨-, -, -, he⟩ | ⟨-, hle, -⟩ :=
    recoverExit_found c buf s m i len hmin hfind hslice hlen
  case inr.inr.inl => exact he
  all_goals omega

/-- Steps (7) and (8): the frame is there whole, and the distance of its two checksums decides (R202,
R204). -/
theorem recoverExit_of_total_le_slice (h : totalSize c.syncLen len ≤ s.length) {computed received : Byte}
    (hcomputed : computed = csum ((s.drop (c.syncLen + 2)).take len))
    (hreceived : received = s.getD (totalSize c.syncLen len - 1) 0) :
    recoverExit c buf m =
      if cnt computed received ≤ c.maxBitErrors then
        .recovered i len received computed (cnt computed received)
      else .invalid i len received computed (cnt computed received) := by
  have htotal := header_lt_totalSize c.syncLen len
  obtain ⟨hlt, -⟩ | ⟨-, hlt, -⟩ | ⟨-, -, hlt, -⟩ | ⟨-, -, k, r, rfl, rfl, hverdict⟩ :=
    recoverExit_found c buf s m i len hmin hfind hslice hlen
  case inr.inr.inr =>
    subst hcomputed hreceived
    obtain ⟨hnear, he⟩ | ⟨hfar, he⟩ := hverdict
    · rw [he, if_pos hnear]
    · rw [he, if_neg (Nat.not_le.2 hfar)]
  all_goals omega

end

section
variable {c : Config} {buf : List Byte} {m : Nat} {e : RecoverExit} (he : recoverExit c buf m = e)
include he

/-- The triple of an exit that holds no frame (R195). -/
theorem recover_of_exit_without_frame (h : (recoverRow c.syncLen e).frmValid = false) :
    recover c buf m =
      ((recoverRow c.syncLen e).outcome, none, buf.drop (recoverRow c.syncLen e).remOff) := by
  rw [recover, he, h]
  rfl

/-- The triple of an exit that holds a frame (R195). -/
theorem recover_of_exit_with_frame (h : (recoverRow c.syncLen e).frmValid = true) :
    recover c buf m =
      ((recoverRow c.syncLen e).outcome,
        some ((buf.drop (recoverRow c.syncLen e).frmOff).take (recoverRow c.syncLen e).frmLen),
        buf.drop (recoverRow c.syncLen e).remOff) := by
  rw [recover, he, h]
  rfl

end

/-- What an exit on a buffer of `n` bytes carries lies inside the buffer: the candidate's index, and once
the frame is there whole its end; the length field is a 16-bit number and the distance at most 8. -/
def RecoverExit.Inside (syncLen n : Nat) : RecoverExit → Prop
  | .tooShort | .noSync => True
  | .tooShortSliced i | .incompleteHeader i => i ≤ n
  | .incompleteFrame i len => i ≤ n ∧ len ≤ 65535
  | .invalid i len _ _ d | .recovered i len _ _ d => i + totalSize syncLen len ≤ n ∧ d ≤ 8

theorem recoverExit_inside (c : Config) (buf : List Byte) (m : Nat) :
    (recoverExit c buf m).Inside c.syncLen buf.length := by
  obtain hshort | hmin := Nat.lt_or_ge buf.length m
  · rw [recoverExit_tooShort c buf m hshort]
    trivial
  cases hfind : find buf c.sync c.maxBitErrors with
  | none =>
    rw [recoverExit_noSync c buf m hmin hfind]
    trivial
  | some i =>
    obtain ⟨hwindow, -⟩ := find_eq_some_iff.1 hfind
    have hi : i ≤ buf.length := by omega
    obtain ⟨-, he⟩ | ⟨-, -, he⟩ | ⟨-, -, -, he⟩ | ⟨-, htotal, k, r, -, -, ⟨-, he⟩ | ⟨-, he⟩⟩ :=
      recoverExit_found c buf _ m i _ hmin hfind rfl rfl <;> rw [he]
    · exact hi
    · exact hi
    · exact ⟨hi, be16_le _ _⟩
    all_goals
      rw [List.length_drop] at htotal
      exact ⟨by omega, cnt_le_eight k r⟩

/-- Every number of a row fits a register (10_state.md R33). -/
structure RecoverRow.Fits (r : RecoverRow) : Prop where
  idx : r.idx < 4294967296
  length : r.length < 4294967296
  csumRx : r.csumRx < 4294967296
  csumCalc : r.csumCalc < 4294967296
  csumDist : r.csumDist < 4294967296
  frmOff : r.frmOff < 4294967296
  frmLen : r.frmLen < 4294967296
  remOff : r.remOff < 4294967296

/-- The row of an exit on a buffer whose length a register holds. -/
theorem RecoverExit.Inside.recoverRow_fits {syncLen n : Nat} {e : RecoverExit} (h : e.Inside syncLen n)
    (hn : n < 4294967296) : (recoverRow syncLen e).Fits := by
  cases e with
  | tooShort | noSync => constructor <;> dsimp only [recoverRow] <;> omega
  | tooShortSliced i | incompleteHeader i =>
    have hi : i ≤ n := h
    constructor <;> dsimp only [recoverRow] <;> omega
  | incompleteFrame i len =>
    obtain ⟨hi, hlen⟩ := h
    constructor <;> dsimp only [recoverRow] <;> omega
  | invalid i len received computed d | recovered i len received computed d =>
    obtain ⟨hend, hd⟩ := h
    have := received.isLt
    have := computed.isLt
    rw [totalSize] at hend
    constructor <;> dsimp only [recoverRow, totalSize] <;> omega

/-- The eleven columns of a row, ERR aside, in the order of R205's table, the outcome and the flags by their
codes. -/
def RecoverRow.columns (r : RecoverRow) : List Nat :=
  [r.outcome.code, r.found.toNat, r.idx, r.length, r.csumRx, r.csumCalc, r.csumDist, r.frmValid.toNat,
    r.frmOff, r.frmLen, r.remOff]

/-- What the registers and flags under the columns of R205's table hold, in its order. -/
def State.recoverColumns (s : State) : List Nat :=
  [s.outcome.code, s.found.toNat, s.idx.toNat, s.length.toNat, s.csumRx.toNat, s.csumCalc.toNat,
    s.csumDist.toNat, s.frmValid.toNat, s.frmOff.toNat, s.frmLen.toNat, s.remOff.toNat]

/-- The registers that a row is written to hold it whole. -/
theorem State.recoverColumns_writeRow_done (s : State) {r : RecoverRow} (h : r.Fits) :
    (s.writeRow r).done.recoverColumns = r.columns := by
  dsimp only [State.recoverColumns, State.done, State.writeRow, RecoverRow.columns]
  rw [word_toNat_of_lt h.idx, word_toNat_of_lt h.length, word_toNat_of_lt h.csumRx,
    word_toNat_of_lt h.csumCalc, word_toNat_of_lt h.csumDist, word_toNat_of_lt h.frmOff,
    word_toNat_of_lt h.frmLen, word_toNat_of_lt h.remOff]

/-- RECOVER writes the row of the exit taken on RX (R205). -/
theorem exec_recover (m : Nat) (s : State) : exec (.recover m) s =
    .next (s.writeRow (recoverRow s.cfg.syncLen (recoverExit s.cfg s.rx m))).done := rfl

/-- The row that RECOVER writes fits its registers in every state: RX_LEN is a register itself. -/
theorem recoverRow_rx_fits (m : Nat) (s : State) :
    (recoverRow s.cfg.syncLen (recoverExit s.cfg s.rx m)).Fits :=
  (recoverExit_inside s.cfg s.rx m).recoverRow_fits (s.rx_length.symm ▸ s.rxLen.isLt)

/-- RECOVER reads RX and leaves it as it was (R205). -/
theorem State.rx_writeRow_done (s : State) (r : RecoverRow) : (s.writeRow r).done.rx = s.rx :=
  State.rx_congr rfl rfl rfl

/-- A row written twice is written once. -/
theorem State.writeRow_done_writeRow_done (s : State) (r : RecoverRow) :
    ((s.writeRow r).done.writeRow r).done = (s.writeRow r).done := rfl

end Sys2Proof.Machine
end

section
/-! The statements of 43_frame_synchronizer.md's family on one call of recover. -/

namespace Sys2Proof.Machine

/-- Settles O24: one lemma per exit in the order of the steps; each exit's row gives its triple. -/
theorem recoverFunctionSteps : Obligations.RecoverFunctionSteps := by
  intro c buf m
  refine ⟨fun hshort => ?tooShort, fun hmin hfind => ?noSync, fun i s hmin hfind hslice =>
    ⟨fun hshort => ?sliced, fun hrecheck hshort => ?header, fun len total hrecheck hheader hlen htotal =>
      ⟨fun hshort => ?frame, fun computed received hwhole hcomputed hreceived => ?checked⟩⟩⟩
  case tooShort =>
    have he := recoverExit_tooShort c buf m hshort
    exact ⟨recover_of_exit_without_frame he rfl, he⟩
  case noSync =>
    have he := recoverExit_noSync c buf m hmin hfind
    exact ⟨recover_of_exit_without_frame he rfl, he⟩
  case sliced =>
    have he := recoverExit_of_slice_lt_min hmin hfind hslice hshort
    exact ⟨recover_of_exit_without_frame he rfl, he⟩
  case header =>
    have he := recoverExit_of_slice_lt_header hmin hfind hslice hrecheck hshort
    exact ⟨recover_of_exit_without_frame he rfl, he⟩
  case frame =>
    have he := recoverExit_of_slice_lt_total hmin hfind hslice hrecheck hlen hheader
      (Nat.lt_of_lt_of_eq hshort htotal)
    exact ⟨recover_of_exit_without_frame he rfl, he⟩
  case checked =>
    obtain rfl : total = totalSize c.syncLen len := htotal
    rw [drop_take_payload] at hcomputed
    have he := recoverExit_of_total_le_slice hmin hfind hslice hrecheck hlen hwhole hcomputed hreceived
    refine ⟨fun hnear => ?recovered, fun hfar => ?invalid⟩
    case recovered =>
      rw [if_pos hnear] at he
      rw [hslice, List.drop_drop]
      exact ⟨recover_of_exit_with_frame he rfl, he⟩
    case invalid =>
      rw [if_neg (Nat.not_le.2 hfar)] at he
      rw [hslice, List.drop_drop]
      exact ⟨recover_of_exit_without_frame he rfl, he⟩

/-- Settles O25: the registers read the row back whole, and the row is R205's table exit by exit. -/
theorem recoverCommandWritesExitRow : Obligations.RecoverCommandWritesExitRow := by
  refine ⟨fun _ => rfl, fun s m => ⟨_, exec_recover m s, rfl, ?_⟩⟩
  refine (s.recoverColumns_writeRow_done (recoverRow_rx_fits m s)).trans ?_
  cases recoverExit s.cfg s.rx m with
  | recovered i len received computed d =>
    have htotal : totalSize s.cfg.syncLen len = s.cfg.syncLen + 3 + len := by
      rw [totalSize]
      omega
    dsimp only [recoverRow, RecoverRow.columns]
    rw [htotal]
    rfl
  | _ => rfl

/-- Settles O26: the row is a function of the configuration and RX, and RECOVER keeps both. -/
theorem recoverIsStatelessBetweenCalls : Obligations.RecoverIsStatelessBetweenCalls := by
  refine ⟨fun s s' m hcfg hrx => ⟨_, exec_recover m s, ?same⟩, fun s t m h => ?again⟩
  case same => rw [exec_recover, hcfg, hrx]
  case again =>
    obtain rfl := Host.Outcome.next.inj h
    refine ⟨State.rx_writeRow_done s _, ?_⟩
    rw [exec_recover, State.rx_writeRow_done, State.done_cfg, State.writeRow_cfg,
      State.writeRow_done_writeRow_done]

end Sys2Proof.Machine
end

section
/-! The buffer commands (44_buffer_commands.md): the push of a byte below capacity and at it (R236, R249), what
a byte sequence is after a push, the discard of bytes from the front that RXACCEPT and RXDROP share (R240,
R243) and that leaves RXCLR's state when it takes all (R246), and the frame of the empty payload (R252). -/

namespace Sys2Proof.Machine

section
variable {m : Memory} {cap : Nat} {len : Word} {b : Byte}

/-- At capacity the byte is not stored (R236, R249). -/
theorem pushByte_of_eq (h : len.toNat = cap) : pushByte m cap len b = .full := if_pos h

/-- Below capacity the byte is stored at the end (R236, R249). -/
theorem pushByte_of_lt (h : len.toNat < cap) :
    pushByte m cap len b = .stored (m.write len.toNat b) (len + 1) := by
  obtain ⟨heq, -⟩ | ⟨hgt, -⟩ | ⟨-, hp⟩ := pushByte_cases m cap len b
  · omega
  · omega
  · exact hp

end

section
variable {s : State} {b : Byte}

/-- RXPUSH below capacity (R236). -/
theorem exec_rxpush_of_lt (h : s.rxLen.toNat < s.cfg.rxCap) :
    exec (.rxpush b) s = .next
      { s with rxbuf := s.rxbuf.write s.rxLen.toNat b, rxLen := s.rxLen + 1, err := .none } := by
  rw [exec, execRxpush, pushByte_of_lt h]
  rfl

/-- RXPUSH at capacity (R236). -/
theorem exec_rxpush_of_eq (h : s.rxLen.toNat = s.cfg.rxCap) :
    exec (.rxpush b) s = .next { s with err := .rxOverflow } := by
  rw [exec, execRxpush, pushByte_of_eq h]
  rfl

/-- TXPUSH below capacity (R249). -/
theorem exec_txpush_of_lt (h : s.txpLen.toNat < s.cfg.txpCap) :
    exec (.txpush b) s = .next
      { s with txpay := s.txpay.write s.txpLen.toNat b, txpLen := s.txpLen + 1, err := .none } := by
  rw [exec, execTxpush, pushByte_of_lt h]
  rfl

/-- TXPUSH at capacity (R249). -/
theorem exec_txpush_of_eq (h : s.txpLen.toNat = s.cfg.txpCap) :
    exec (.txpush b) s = .next { s with err := .txOverflow } := by
  rw [exec, execTxpush, pushByte_of_eq h]
  rfl

end

/-- The bytes of a space are one more once the byte past them holds `b` and those before it are as they were;
a byte without a value reads as before, since its free value follows the epoch. -/
theorem State.bytes_succ_of_held {s t : State} {sp : Space} {n : Nat} {b : Byte}
    (hepoch : t.epoch = s.epoch) (hlast : t.held sp n = some b)
    (hkept : ∀ a, a < n → t.held sp a = s.held sp a) : t.bytes sp (n + 1) = s.bytes sp n ++ [b] := by
  have hprefix : (List.range n).map (t.readByte sp) = (List.range n).map (s.readByte sp) :=
    List.map_congr_left fun a ha => by
      rw [State.readByte, State.readByte, State.unspecified, State.unspecified, hepoch,
        hkept a (List.mem_range.1 ha)]
  have hnew : t.readByte sp n = b := by rw [State.readByte, hlast, Option.getD_some]
  rw [State.bytes, State.bytes, List.range_succ, List.map_append, hprefix, List.map_singleton, hnew]

/-- The byte that a write stores. -/
theorem Memory.read_write_self (m : Memory) (a : Nat) (b : Byte) : (m.write a b).read a = some b := by
  rw [Memory.read_write, if_pos rfl]

/-- A write leaves every other address as it was. -/
theorem Memory.read_write_of_ne {m : Memory} {a x : Nat} {b : Byte} (h : x ≠ a) :
    (m.write a b).read x = m.read x := by
  rw [Memory.read_write, if_neg h]

/-- What RXACCEPT and RXDROP do: the first `k` bytes of the receive buffer go, and with them every slice
register (20_memory.md R82, 10_state.md R41). -/
def State.discard (s : State) (k : Nat) : State := (s.removeFront k).invalidateSlices.done

section
variable (s : State)

/-- RXACCEPT discards up to the remainder (R240). -/
theorem exec_rxaccept : exec .rxaccept s = .next (s.discard s.remOff.toNat) := rfl

/-- RXDROP discards what it is asked to and RX has (R243). -/
theorem exec_rxdrop (n : Nat) : exec (.rxdrop n) s = .next (s.discard (min n s.rxLen.toNat)) := rfl

theorem State.discard_rxLen_toNat (k : Nat) : (s.discard k).rxLen.toNat = s.rxLen.toNat - k :=
  s.removeFront_rxLen_toNat k

theorem State.discard_rx (k : Nat) : (s.discard k).rx = s.rx.drop k :=
  (State.rx_congr rfl rfl rfl).trans (s.rx_removeFront k)

/-- After a discard RXBUF is RX and nothing else, so a discard of nothing finds all as it leaves it. -/
theorem State.discard_discard_zero (k : Nat) : (s.discard k).discard 0 = s.discard k := by
  have hbuf : Memory.ofBytes ((s.discard k).rx.drop 0) = (s.discard k).rxbuf :=
    congrArg Memory.ofBytes (s.discard_rx k)
  have hlen : word ((s.discard k).rxLen.toNat - 0) = (s.discard k).rxLen :=
    (BitVec.ofNat_toNat ..).trans (BitVec.setWidth_eq _)
  calc (s.discard k).discard 0
      = { s.discard k with
          rxbuf := Memory.ofBytes ((s.discard k).rx.drop 0)
          rxLen := word ((s.discard k).rxLen.toNat - 0) } := rfl
    _ = s.discard k := by rw [hbuf, hlen]

/-- RXCLR empties the buffer and with it every slice register (R246). -/
theorem exec_rxclr : exec .rxclr s =
    .next { s with rxbuf := Memory.empty, rxLen := 0 }.invalidateSlices.done := rfl

/-- A discard of all of RX leaves what RXCLR leaves: no byte, and a memory without a value (R246). -/
theorem State.discard_rxLen :
    s.discard s.rxLen.toNat =
      { s with rxbuf := Memory.empty, rxLen := 0 }.invalidateSlices.done := by
  have hbuf : Memory.ofBytes (s.rx.drop s.rxLen.toNat) = Memory.empty :=
    congrArg Memory.ofBytes (List.drop_of_length_le s.rx_length.le)
  have hlen : word (s.rxLen.toNat - s.rxLen.toNat) = 0 := congrArg word (Nat.sub_self _)
  rw [State.discard, State.removeFront, hbuf, hlen]

/-- TXCLR empties the staged payload and writes ERR (R252). -/
theorem exec_txclr :
    exec .txclr s = .next { s with txpay := Memory.empty, txpLen := 0, err := .none } := rfl

end

/-- The frame of the empty payload: the length field and the checksum are 0 (R252). -/
theorem build_nil (sync : List Byte) : build sync [] = .ok (sync ++ [0, 0, 0]) := by
  rw [build_of_length_le (Nat.zero_le _), List.append_nil, List.append_assoc]
  rfl

/-- BUILD with nothing staged stores the frame of the empty payload, whatever TXFRM held (R168, R252). -/
theorem exec_build_of_txp_nil {s : State} (h : s.txp = []) :
    ∃ u, exec .build s = .next u ∧ u.txf = s.cfg.sync ++ [0, 0, 0] := by
  have hbuild : build s.cfg.sync s.txp = .ok (s.cfg.sync ++ [0, 0, 0]) := h ▸ build_nil s.cfg.sync
  exact ⟨_, exec_build_of_ok hbuild, txf_of_exec_build hbuild (exec_build_of_ok hbuild)⟩

end Sys2Proof.Machine
end

section
/-! The statements of 44_buffer_commands.md's family. -/

namespace Sys2Proof.Machine

/-- Settles O38: below capacity the byte is written at RX_LEN and nothing else moves, which makes RX one byte
longer; at capacity the push is refused. -/
theorem rxpushCommandResult : Obligations.RxpushCommandResult := by
  refine ⟨fun _ => rfl, fun s b hroom => ?stored, fun s b hfull => exec_rxpush_of_eq hfull⟩
  case stored =>
    have hlen := pushed_length s.rxLen s.cfg.rxCap hroom s.cfg.rxCapBounded
    have hlast := s.rxbuf.read_write_self s.rxLen.toNat b
    refine ⟨_, exec_rxpush_of_lt hroom, rfl, hlen, ?_, hlast, fun a => Memory.read_write_of_ne⟩
    rw [State.rx, hlen]
    exact State.bytes_succ_of_held rfl hlast fun a ha => Memory.read_write_of_ne ha.ne

/-- Settles O39: as RXPUSH, on the staged payload; TXFRM and TXF_LEN are not among what is written. -/
theorem txpushCommandResult : Obligations.TxpushCommandResult := by
  refine ⟨fun _ => rfl, fun s b hroom => ?stored, fun s b hfull => exec_txpush_of_eq hfull⟩
  case stored =>
    have hlen := pushed_length s.txpLen s.cfg.txpCap hroom s.cfg.txpCapBounded
    have hlast := s.txpay.read_write_self s.txpLen.toNat b
    refine ⟨_, exec_txpush_of_lt hroom, rfl, hlen, ?_, hlast, fun a => Memory.read_write_of_ne⟩
    rw [State.txp, hlen]
    exact State.bytes_succ_of_held rfl hlast fun a ha => Memory.read_write_of_ne ha.ne

/-- Settles O41: REM_OFF is 0 after a discard, so the second RXACCEPT discards nothing. -/
theorem rxacceptCommandResult : Obligations.RxacceptCommandResult := by
  refine ⟨rfl, fun s hinside => ⟨_, exec_rxaccept s, rfl, ?length, s.discard_rx _, ?again⟩⟩
  case length =>
    rw [s.discard_rxLen_toNat]
    exact Nat.sub_add_cancel hinside
  case again => exact congrArg Host.Outcome.next (s.discard_discard_zero _)

/-- Settles O42: RXDROP is the discard of min(n, RX_LEN) bytes, whatever n is. -/
theorem rxdropCommandResult : Obligations.RxdropCommandResult :=
  ⟨fun _ => rfl, fun s n =>
    ⟨_, exec_rxdrop s n, rfl, s.discard_rxLen_toNat _, s.discard_rx _⟩⟩

/-- Settles O43: RXDROP of RX_LEN bytes or more is the discard of RX_LEN bytes, which leaves RXCLR's state. -/
theorem rxclrCommandResult : Obligations.RxclrCommandResult := by
  refine ⟨rfl, fun s => ⟨_, exec_rxclr s, rfl, fun n hn => ?dropped⟩⟩
  case dropped => rw [exec_rxdrop, Nat.min_eq_right hn, s.discard_rxLen]

/-- Settles O44: TXP_LEN is 0, so nothing is staged, and BUILD stores the empty payload's frame. -/
theorem txclrCommandResult : Obligations.TxclrCommandResult :=
  ⟨rfl, fun s => ⟨_, exec_txclr s, rfl, rfl, exec_build_of_txp_nil rfl⟩⟩

end Sys2Proof.Machine
end

section
/-! Errors and what holds a frame (60_exceptions.md R276 to R287): a command ends normally or raises before it
writes anything, `parse` refuses exactly the views that are too short, and FRM_VALID is set by the Recovered
exit alone. -/

namespace Sys2Proof.Machine

section
variable {s t : State}

/-- A command ends normally, or it raises and does nothing else: errors are precise (R277, R278). -/
theorem exec_done_or_raise {i : Instr} (h : exec i s = .next t) :
    t.err = .none ∨ ∃ e, t = s.raise e := by
  cases i with
  | nop | cnt | recover | rxaccept | rxdrop | rxclr | txclr =>
    obtain rfl := Host.Outcome.next.inj h
    exact .inl rfl
  | find => obtain ⟨-, rfl⟩ | ⟨i, -, rfl⟩ := execFind_cases h <;> exact .inl rfl
  | parse off =>
    obtain ⟨e, -, rfl⟩ | ⟨p, -, rfl⟩ := execParse_cases h
    · exact .inr ⟨e, rfl⟩
    · exact .inl rfl
  | extract =>
    obtain ⟨-, rfl⟩ | ⟨-, rfl⟩ := execExtract_cases h
    · exact .inr ⟨.nullFrame, rfl⟩
    · exact .inl rfl
  | build =>
    obtain ⟨e, -, rfl⟩ | ⟨f, -, rfl⟩ := execBuild_cases h
    · exact .inr ⟨e, rfl⟩
    · exact .inl rfl
  | rxpush b =>
    obtain ⟨-, rfl⟩ | ⟨-, rfl⟩ := execRxpush_cases h
    · exact .inr ⟨.rxOverflow, rfl⟩
    · exact .inl rfl
  | txpush b =>
    obtain ⟨-, rfl⟩ | ⟨-, rfl⟩ := execTxpush_cases h
    · exact .inr ⟨.txOverflow, rfl⟩
    · exact .inl rfl

/-- The same of an issued word: one that is no command raises IllegalCommand (R282). -/
theorem issue_done_or_raise {w : Word} (h : issue w s = .next t) :
    t.err = .none ∨ ∃ e, t = s.raise e := by
  cases hw : decode w with
  | ok i => exact exec_done_or_raise ((issue_ok w i s hw).symm.trans h)
  | error e =>
    obtain rfl := Host.Outcome.next.inj ((issue_error w e s hw).symm.trans h)
    exact .inr ⟨.illegalCommand, rfl⟩

/-- Raising leaves its trace in ERR alone, so the state after it is known from its ERR (R277). -/
theorem eq_of_done_or_raise (h : t.err = .none ∨ ∃ e, t = s.raise e) (herr : t.err ≠ .none) :
    t = { s with err := t.err } := by
  obtain hdone | ⟨e, rfl⟩ := h
  · exact absurd hdone herr
  · rfl

end

/-- The only error of `parse` is InsufficientData, and only a view shorter than the header or than the frame it
declares raises it (42_frame_codec.md R171, R173). -/
theorem parse_eq_error_iff {v : List Byte} {n : Nat} {e : Err} :
    parse v n = .error e ↔
      (v.length < n + 2 ∨ v.length < totalSize n (headerLength v n)) ∧ e = .insufficientData := by
  obtain ⟨hlt, hp⟩ | ⟨-, hlt, hp⟩ | ⟨hheader, htotal, hp⟩ := parse_cases v n <;> rw [hp]
  · exact ⟨fun h => ⟨.inl hlt, (Except.error.inj h).symm⟩, fun ⟨_, he⟩ => he ▸ rfl⟩
  · exact ⟨fun h => ⟨.inr hlt, (Except.error.inj h).symm⟩, fun ⟨_, he⟩ => he ▸ rfl⟩
  · exact ⟨nofun, fun ⟨hshort, _⟩ => by omega⟩

/-- When PARSE raises, by RX_LEN and the bytes of RX (R174). -/
theorem parse_view_rx_eq_error_iff {s : State} {off : Nat} {e : Err} :
    parse (view s.rx off) s.cfg.syncLen = .error e ↔
      (s.rxLen.toNat - off < s.cfg.syncLen + 2 ∨
        s.rxLen.toNat - off < s.cfg.syncLen + 3 +
          be16 (s.rx.getD (off + s.cfg.syncLen) 0) (s.rx.getD (off + s.cfg.syncLen + 1) 0)) ∧
      e = .insufficientData := by
  have htotal (len : Nat) : totalSize s.cfg.syncLen len = s.cfg.syncLen + 3 + len := by
    rw [totalSize]
    omega
  rw [parse_eq_error_iff, htotal, headerLength_view, List.length_drop, s.rx_length]

/-- The Recovered exit is taken only within tolerance (43_frame_synchronizer.md R204). -/
theorem dist_le_of_recoverExit_recovered {c : Config} {buf : List Byte} {m i len d : Nat} {r k : Byte}
    (h : recoverExit c buf m = .recovered i len r k d) : d ≤ c.maxBitErrors := by
  obtain hshort | hmin := Nat.lt_or_ge buf.length m
  · cases (recoverExit_tooShort c buf m hshort).symm.trans h
  cases hfind : find buf c.sync c.maxBitErrors with
  | none => cases (recoverExit_noSync c buf m hmin hfind).symm.trans h
  | some j =>
    obtain ⟨-, he⟩ | ⟨-, -, he⟩ | ⟨-, -, -, he⟩ | ⟨-, -, k, r, -, -, ⟨hnear, he⟩ | ⟨-, he⟩⟩ :=
      recoverExit_found c buf _ m j _ hmin hfind rfl rfl <;> cases he.symm.trans h
    exact hnear

/-- The row of Recovered is the only one that holds a frame (R205). -/
theorem exists_recovered_of_recoverRow_frmValid {n : Nat} {e : RecoverExit}
    (h : (recoverRow n e).frmValid = true) : ∃ i len r k d, e = .recovered i len r k d := by
  cases e with
  | recovered i len r k d => exact ⟨i, len, r, k, d, rfl⟩
  | _ => cases h

section
variable {s t : State}

/-- A RECOVER after which a frame is held has ended Recovered, within tolerance (R287). -/
theorem outcome_csumDist_of_exec_recover {m : Nat} (h : exec (.recover m) s = .next t)
    (hvalid : t.frmValid = true) :
    t.outcome = .recovered ∧ t.csumDist.toNat ≤ s.cfg.maxBitErrors := by
  obtain rfl := Host.Outcome.next.inj ((exec_recover m s).symm.trans h)
  rw [State.done_frmValid, State.writeRow_frmValid] at hvalid
  obtain ⟨i, len, r, k, d, he⟩ := exists_recovered_of_recoverRow_frmValid hvalid
  have hd : d ≤ s.cfg.maxBitErrors := dist_le_of_recoverExit_recovered he
  rw [he]
  exact ⟨rfl, Nat.le_trans (Nat.mod_le d _) hd⟩

/-- No command but RECOVER sets FRM_VALID (R287). -/
theorem exists_recover_of_exec_frmValid {i : Instr} (h : exec i s = .next t)
    (hclear : s.frmValid = false) (hset : t.frmValid = true) : ∃ m, i = .recover m := by
  have hne : t.frmValid ≠ s.frmValid := by rw [hclear, hset]; decide
  cases i with
  | recover m => exact ⟨m, rfl⟩
  | nop | cnt | txclr =>
    obtain rfl := Host.Outcome.next.inj h
    exact absurd rfl hne
  | rxaccept | rxdrop | rxclr =>
    obtain rfl := Host.Outcome.next.inj h
    cases hset
  | find => obtain ⟨-, rfl⟩ | ⟨i, -, rfl⟩ := execFind_cases h <;> exact absurd rfl hne
  | parse off => obtain ⟨e, -, rfl⟩ | ⟨p, -, rfl⟩ := execParse_cases h <;> exact absurd rfl hne
  | extract => obtain ⟨-, rfl⟩ | ⟨-, rfl⟩ := execExtract_cases h <;> exact absurd rfl hne
  | build => obtain ⟨e, -, rfl⟩ | ⟨f, -, rfl⟩ := execBuild_cases h <;> exact absurd rfl hne
  | rxpush b => obtain ⟨-, rfl⟩ | ⟨-, rfl⟩ := execRxpush_cases h <;> exact absurd rfl hne
  | txpush b => obtain ⟨-, rfl⟩ | ⟨-, rfl⟩ := execTxpush_cases h <;> exact absurd rfl hne

end

end Sys2Proof.Machine
end

section
/-! The statements of 60_exceptions.md's family. -/

namespace Sys2Proof.Machine

/-- Settles O36: of the moves of the host only an issued command can set FRM_VALID, of the commands only
RECOVER, and of its exits only Recovered. -/
theorem frameHeldOnlyAfterChecksumPassed : Obligations.FrameHeldOnlyAfterChecksumPassed := by
  intro s t h hclear hset
  have hne : t.frmValid ≠ s.frmValid := by rw [hclear, hset]; decide
  obtain ⟨-, rfl⟩ | ⟨mv, rest, hpending, hmove⟩ := step_cases s t h
  · exact absurd rfl hne
  obtain ⟨w, i, rfl, hw, hexec⟩ | ⟨w, e, -, -, rfl⟩ | ⟨n, -, rfl⟩ | ⟨space, addr, -, rfl⟩ | ⟨-, rfl⟩ :=
    hmove
  · obtain ⟨m, rfl⟩ := exists_recover_of_exec_frmValid hexec hclear hset
    obtain ⟨houtcome, hdist⟩ := outcome_csumDist_of_exec_recover hexec hset
    exact ⟨w, m, rest, hpending, hw, houtcome, hdist⟩
  · exact absurd rfl hne
  · exact absurd rfl hne
  · exact absurd rfl hne
  · cases hset

/-- Settles O46: each command's ways to end, each with its ERR; the ways of a command that can raise exclude
each other. -/
theorem everyCommandWritesErr : Obligations.EveryCommandWritesErr := by
  intro i s t h
  cases i with
  | nop | cnt | recover | rxaccept | rxdrop | rxclr | txclr =>
    obtain rfl := Host.Outcome.next.inj h
    rfl
  | find => obtain ⟨-, rfl⟩ | ⟨i, -, rfl⟩ := execFind_cases h <;> rfl
  | build =>
    dsimp only
    rw [← s.txp_length]
    obtain ⟨e, hb, rfl⟩ | ⟨f, hb, rfl⟩ := execBuild_cases h
    · obtain ⟨hlong, rfl⟩ := build_eq_error_iff.1 hb
      exact (if_pos hlong).symm
    · refine (if_neg fun hlong => ?_).symm
      cases hb.symm.trans (build_of_length_gt hlong)
  | parse off =>
    obtain ⟨e, hp, rfl⟩ | ⟨p, hp, rfl⟩ := execParse_cases h
    · obtain ⟨hshort, rfl⟩ := parse_view_rx_eq_error_iff.1 hp
      exact (if_pos hshort).symm
    · refine (if_neg fun hshort => ?_).symm
      cases hp.symm.trans (parse_view_rx_eq_error_iff.2 ⟨hshort, rfl⟩)
  | extract =>
    obtain ⟨hv, rfl⟩ | ⟨hv, rfl⟩ := execExtract_cases h
    · exact (if_neg (Bool.eq_false_iff.1 hv)).symm
    · exact (if_pos hv).symm
  | rxpush b =>
    obtain ⟨hfull, rfl⟩ | ⟨hroom, rfl⟩ := execRxpush_cases h
    · exact (if_pos hfull).symm
    · exact (if_neg hroom.ne).symm
  | txpush b =>
    obtain ⟨hfull, rfl⟩ | ⟨hroom, rfl⟩ := execTxpush_cases h
    · exact (if_pos hfull).symm
    · exact (if_neg hroom.ne).symm

/-- Settles O45: a command or word that has not ended normally has raised. -/
theorem raisedErrorChangesOnlyErr : Obligations.RaisedErrorChangesOnlyErr :=
  ⟨fun _ _ _ h => eq_of_done_or_raise (exec_done_or_raise h),
    fun _ _ _ h => eq_of_done_or_raise (issue_done_or_raise h)⟩

end Sys2Proof.Machine
end

section
/-! Reset as a step (70_reset_and_hazards.md R310): the state it answers, and what the host reads of the
registers there. -/

namespace Sys2Proof.Machine

variable (s : State)

/-- Reset as a step: the move is consumed, the epoch advances, and the instance is reset. -/
theorem step_reset (rest : List HostMove) :
    step { s with pending := .reset :: rest } =
      .next { s with pending := rest }.nextEpoch.afterReset :=
  step_cons { s with pending := .reset :: rest } .reset rest rfl

/-- No error, no outcome and neither flag: all of STATUS is 0 (10_state.md R34, R49). -/
@[simp] theorem State.afterReset_status : s.afterReset.status = 0 := by
  rw [State.status, afterReset_err, afterReset_outcome, afterReset_found, afterReset_frmValid]
  rfl

/-- Register by register, in the order of 10_state.md R32: what reset leaves in it is 0 (R49). -/
theorem regRead_afterReset (n : BitVec 5) (hn : n.toNat ≤ 14) : regRead s.afterReset n = 0 := by
  have hregisters : ∀ k : BitVec 5, k.toNat ∈ List.range 15 → regRead s.afterReset k = 0 :=
    forall_register ⟨s.afterReset_status, s.afterReset_cnt, s.afterReset_idx, s.afterReset_length,
      s.afterReset_csumRx, s.afterReset_csumCalc, s.afterReset_csumDist, s.afterReset_frmOff,
      s.afterReset_frmLen, s.afterReset_remOff, s.afterReset_payOff, s.afterReset_payLen,
      s.afterReset_rxLen, s.afterReset_txpLen, s.afterReset_txfLen⟩
  exact hregisters n (List.mem_range.2 (Nat.lt_succ_of_le hn))

end Sys2Proof.Machine
end

section
/-! The statement of 70_reset_and_hazards.md's family on what reset clears (R310). -/

namespace Sys2Proof.Machine

/-- Settles O52: a reset step answers `afterReset` of the configuration it found, whatever was held; STATUS
is 0 since its four fields are, and the configuration and the moves to come are carried over. -/
theorem resetClearsRegisters : Obligations.ResetClearsRegisters := by
  intro s rest
  exact ⟨_, step_reset s rest, regRead_afterReset _, State.afterReset_err _, State.afterReset_outcome _,
    State.afterReset_found _, State.afterReset_frmValid _, State.afterReset_rxLen _,
    State.afterReset_txpLen _, State.afterReset_txfLen _, State.afterReset_cfg _,
    State.afterReset_pending _⟩

end Sys2Proof.Machine
end

section
/-! The command word in both directions (30_encoding.md R110 to R117): the number that `encode` builds, the
immediates that a row of the opcode map reads back, and a format's mask. -/

namespace Sys2Proof

theorem imm8_toNat (w : Word) : (imm8 w).toNat = w.toNat / 256 % 256 := by
  rw [imm8, BitVec.extractLsb'_toNat, Nat.shiftRight_eq_div_pow]

theorem imm8b_toNat (w : Word) : (imm8b w).toNat = w.toNat / 65536 % 256 := by
  rw [imm8b, BitVec.extractLsb'_toNat, Nat.shiftRight_eq_div_pow]

/-- `imm24` is all that stands above the opcode (R112). -/
theorem imm24_eq_div (w : Word) : imm24 w = w.toNat / 256 := by
  have := w.isLt
  rw [imm24, BitVec.extractLsb'_toNat, Nat.shiftRight_eq_div_pow]
  omega

theorem Instr.opcode_lt (i : Instr) : i.opcode < 256 := by
  cases i <;> simp only [Instr.opcode] <;> omega

/-- The immediates of a well-formed command end where its format's must-be-zero bits begin (R111, R112). -/
theorem Instr.immediates_lt {i : Instr} (h : i.wellFormed = true) :
    256 * i.immediates < 2 ^ i.format.zeroFrom := by
  cases i with
  | cnt a b =>
    have := a.isLt
    have := b.isLt
    simp only [Instr.immediates, Instr.format, Format.zeroFrom]
    omega
  | parse n | recover n | rxdrop n =>
    have hn : n < 16777216 := of_decide_eq_true h
    simp only [Instr.immediates, Instr.format, Format.zeroFrom]
    omega
  | rxpush b | txpush b =>
    have := b.isLt
    simp only [Instr.immediates, Instr.format, Format.zeroFrom]
    omega
  | nop | find | extract | build | rxaccept | rxclr | txclr => exact Nat.two_pow_pos _

theorem Format.eight_le_zeroFrom (f : Format) : 8 ≤ f.zeroFrom := by
  cases f <;> decide

theorem Format.zeroFrom_le (f : Format) : f.zeroFrom ≤ 32 := by
  cases f <;> decide

/-- A well-formed command's number lies below its format's must-be-zero bits (R111). -/
theorem Instr.number_lt {i : Instr} (h : i.wellFormed = true) :
    i.opcode + 256 * i.immediates < 2 ^ i.format.zeroFrom := by
  have himm := Instr.immediates_lt h
  have hop := i.opcode_lt
  have hsplit : 2 ^ i.format.zeroFrom = 256 * 2 ^ (i.format.zeroFrom - 8) := by
    rw [show (256 : Nat) = 2 ^ 8 by norm_num, ← Nat.pow_add,
      Nat.add_sub_cancel' i.format.eight_le_zeroFrom]
  omega

/-- The word of a well-formed command holds its number whole (R112). -/
theorem encode_toNat {i : Instr} (h : i.wellFormed = true) :
    (encode i).toNat = i.opcode + 256 * i.immediates :=
  Machine.word_toNat_of_lt (Nat.lt_of_lt_of_le (Instr.number_lt h)
    (Nat.pow_le_pow_right (by decide) i.format.zeroFrom_le))

/-- A word with a command's opcode and immediates stands in the command's row, which reads the command back
(R112, R115). -/
theorem opcodeRow_opcode {i : Instr} {w : Word} (h : w.toNat / 256 = i.immediates) :
    opcodeRow i.opcode w = some (i.format, i) := by
  cases i with
  | cnt a b =>
    have hnum : w.toNat / 256 = a.toNat + 256 * b.toNat := h
    have := a.isLt
    have := b.isLt
    have ha : imm8 w = a := BitVec.eq_of_toNat_eq (by rw [imm8_toNat]; omega)
    have hb : imm8b w = b := BitVec.eq_of_toNat_eq (by rw [imm8b_toNat]; omega)
    exact ha ▸ hb ▸ rfl
  | parse n | recover n | rxdrop n =>
    obtain rfl : imm24 w = n := (imm24_eq_div w).trans h
    rfl
  | rxpush b | txpush b =>
    have hnum : w.toNat / 256 = b.toNat := h
    have := b.isLt
    obtain rfl : imm8 w = b := BitVec.eq_of_toNat_eq (by rw [imm8_toNat]; omega)
    rfl
  | nop | find | extract | build | rxaccept | rxclr | txclr => rfl

/-- What a row reads is well-formed, and when nothing stands above its format's immediates, they are all that
stands above the opcode (R112, R113). -/
theorem wellFormed_immediates_of_opcodeRow {op : Nat} {w : Word} {f : Format} {i : Instr}
    (hrow : opcodeRow op w = some (f, i)) (hzero : w.toNat / 2 ^ f.zeroFrom = 0) :
    i.wellFormed = true ∧ i.immediates = w.toNat / 256 := by
  have hlt := w.isLt
  have h24 : imm24 w < 16777216 := by
    rw [imm24_eq_div]
    omega
  revert hrow
  fun_cases opcodeRow op w <;> rintro ⟨⟩ <;> simp only [Format.zeroFrom] at hzero
  case case2 =>
    refine ⟨rfl, ?_⟩
    simp only [Instr.immediates, imm8_toNat, imm8b_toNat]
    omega
  case case4 | case7 | case10 => exact ⟨decide_eq_true h24, imm24_eq_div w⟩
  case case8 | case12 =>
    refine ⟨rfl, (imm8_toNat w).trans ?_⟩
    omega
  all_goals exact ⟨rfl, by simp only [Instr.immediates]; omega⟩

/-- A word that decodes stands in the row of its command, with nothing above the format's immediates
(R113). -/
theorem opcodeRow_of_decode {w : Word} {i : Instr} (h : decode w = .ok i) :
    opcodeRow (w.toNat % 256) w = some (i.format, i) ∧ w.toNat / 2 ^ i.format.zeroFrom = 0 := by
  refine ⟨?_, (opcode_zeroFrom_of_decode h).2⟩
  cases hrow : opcodeRow (w.toNat % 256) w with
  | none => cases (decode_of_opcodeRow_none hrow).symm.trans h
  | some row =>
    rw [decode_of_opcodeRow_some hrow] at h
    split at h
    next =>
      obtain rfl := Except.ok.inj h
      exact congrArg some (Prod.ext (opcode_format_of_opcodeRow hrow).2.symm rfl)
    next => cases h

/-- A well-formed command's word decodes to the command (R112, R113). -/
theorem decode_encode {i : Instr} (h : i.wellFormed = true) : decode (encode i) = .ok i := by
  have hnum := encode_toNat h
  have hop := i.opcode_lt
  have hlow : (encode i).toNat % 256 = i.opcode := by omega
  have hrow : opcodeRow ((encode i).toNat % 256) (encode i) = some (i.format, i) :=
    hlow ▸ opcodeRow_opcode (by omega)
  rw [decode_of_opcodeRow_some hrow, if_pos]
  rw [hnum]
  exact Nat.div_eq_of_lt (Instr.number_lt h)

/-- A format's mask is its must-be-zero bits and the opcode (R117). -/
theorem Format.mask_eq (f : Format) : f.mask = f.mustBeZero ||| 0xFF := by
  cases f <;> rfl

/-- No must-be-zero bit stands in the opcode (R111). -/
theorem Format.opcode_and_mustBeZero (f : Format) : (0xFF : Word) &&& f.mustBeZero = 0 := by
  cases f <;> rfl

theorem and_opcode_toNat (w : Word) : (w &&& 0xFF).toNat = w.toNat % 256 :=
  (BitVec.toNat_and ..).trans (Nat.and_two_pow_sub_one_eq_mod w.toNat 8)

/-- A word has a number below 256 under a format's mask exactly when that is its opcode and no must-be-zero
bit is set (R117). -/
theorem Format.and_mask_eq_word_iff (f : Format) (w : Word) {op : Nat} (hop : op < 256) :
    w &&& f.mask = word op ↔ w.toNat % 256 = op ∧ w.toNat / 2 ^ f.zeroFrom = 0 := by
  have hopcode : word op &&& 0xFF = word op := by
    refine BitVec.eq_of_toNat_eq ?_
    rw [and_opcode_toNat, Machine.word_toNat_of_lt (by omega)]
    omega
  have hlow : w &&& 0xFF = word op ↔ w.toNat % 256 = op := by
    rw [← BitVec.toNat_inj, and_opcode_toNat, Machine.word_toNat_of_lt (by omega)]
  have hhigh : word op &&& f.mustBeZero = 0 := by
    rw [← hopcode, BitVec.and_assoc, f.opcode_and_mustBeZero]
    exact BitVec.and_zero
  rw [← hlow, ← f.and_mustBeZero_eq_zero_iff]
  have hmaskLow : f.mask &&& 0xFF = 0xFF := by cases f <;> rfl
  have hmaskHigh : f.mask &&& f.mustBeZero = f.mustBeZero := by cases f <;> rfl
  constructor
  · intro h
    constructor
    · rw [← hmaskLow, ← BitVec.and_assoc, h, hopcode]
    · rw [← hmaskHigh, ← BitVec.and_assoc, h, hhigh]
  · rintro ⟨hlowOp, hzero⟩
    rw [f.mask_eq, BitVec.and_or_distrib_left, hlowOp, hzero]
    exact BitVec.zero_or

/-- A row of the opcode map has one format (R115). -/
theorem Instr.format_eq_of_opcode_eq {i j : Instr} (h : i.opcode = j.opcode) : i.format = j.format := by
  obtain ⟨k, hk⟩ := (exists_opcodeRow_format_iff i.opcode 0 i.format).2 i.opcode_mem_opcodes
  obtain ⟨l, hl⟩ := (exists_opcodeRow_format_iff j.opcode 0 j.format).2 j.opcode_mem_opcodes
  rw [h, hl] at hk
  exact (congrArg Prod.fst (Option.some.inj hk)).symm

end Sys2Proof
end

section
/-! The statements of 30_encoding.md's family on words and commands (R110 to R117), and the step that runs an
issued word (20_memory.md R84). -/

namespace Sys2Proof.Machine

/-- Settles O1: the number of a command splits into its opcode and its immediates, and the opcode's row reads
both back. -/
theorem decodeEncodeRoundTrip : Obligations.DecodeEncodeRoundTrip := fun _ => decode_encode

/-- Settles O2: the row of a word reads all that stands above its opcode, so opcode and immediates give the
word's number. -/
theorem decodedWordReencodes : Obligations.DecodedWordReencodes := by
  intro w i h
  obtain ⟨hrow, hzero⟩ := opcodeRow_of_decode h
  obtain ⟨hwf, himm⟩ := wellFormed_immediates_of_opcodeRow hrow hzero
  obtain ⟨hop, -⟩ := opcode_format_of_opcodeRow hrow
  refine ⟨hwf, BitVec.eq_of_toNat_eq ?_⟩
  rw [encode_toNat hwf, hop, himm]
  exact Nat.mod_add_div w.toNat 256

/-- Settles O3: under its mask a word shows its opcode and its must-be-zero bits, which is what the decoder
looks at; two rows that a word fits have its opcode. -/
theorem wordIsCommandExactlyUnderMask : Obligations.WordIsCommandExactlyUnderMask := by
  refine ⟨fun i w => ?command, fun i j w hi hj => ?overlap⟩
  case command =>
    rw [i.format.and_mask_eq_word_iff w i.opcode_lt]
    constructor
    · rintro ⟨j, hj, hop⟩
      rw [← Instr.format_eq_of_opcode_eq hop, ← hop]
      exact opcode_zeroFrom_of_decode hj
    · rintro ⟨hop, hzero⟩
      obtain ⟨j, hrow⟩ :=
        (exists_opcodeRow_format_iff (w.toNat % 256) w i.format).2 (hop ▸ i.opcode_mem_opcodes)
      exact ⟨j, (decode_of_opcodeRow_some hrow).trans (if_pos hzero),
        (opcode_format_of_opcodeRow hrow).1.trans hop⟩
  case overlap =>
    obtain ⟨hi, -⟩ := (i.format.and_mask_eq_word_iff w i.opcode_lt).1 hi
    obtain ⟨hj, -⟩ := (j.format.and_mask_eq_word_iff w j.opcode_lt).1 hj
    exact hi.symm.trans hj

/-- Settles O5: twelve words evaluated. -/
theorem specWordsDecode : Obligations.SpecWordsDecode :=
  ⟨rfl, rfl, rfl, rfl, rfl, rfl, rfl, rfl, rfl, rfl, rfl, rfl⟩

/-- Settles O6: the step makes the issued move, and a word that decodes runs its command. -/
theorem stepRunsDecodedCommand : Obligations.StepRunsDecodedCommand :=
  fun w i rest _ h => (step_cons _ (.issue w) rest rfl).trans (issue_ok w i _ h)

end Sys2Proof.Machine
end

section
/-! What an exit of recover says of the buffer (43_frame_synchronizer.md R195), and so what the row it writes
says of RX (R205): the other direction of the exit lemmas. -/

namespace Sys2Proof.Machine

/-- The frame that stands at index `i` with length field `len`, whole, its checksum byte `r`, the checksum `k`
computed over its payload, and their distance `d` (R195 steps 6 to 8). -/
structure CheckedFrame (c : Config) (buf : List Byte) (i len : Nat) (r k : Byte) (d : Nat) : Prop where
  found : find buf c.sync c.maxBitErrors = some i
  whole : i + totalSize c.syncLen len ≤ buf.length
  length_eq : len = headerLength (buf.drop i) c.syncLen
  computed_eq : k = csum (((buf.drop i).drop (c.syncLen + 2)).take len)
  received_eq : r = (buf.drop i).getD (totalSize c.syncLen len - 1) 0
  dist_eq : d = cnt k r

/-- What the exit that recover takes says of its buffer. -/
def RecoverExit.Evidence (c : Config) (buf : List Byte) (m : Nat) : RecoverExit → Prop
  | .tooShort | .noSync => True
  | .tooShortSliced i | .incompleteHeader i => find buf c.sync c.maxBitErrors = some i
  | .incompleteFrame i len =>
    find buf c.sync c.maxBitErrors = some i ∧ m ≤ buf.length - i ∧ c.syncLen + 2 ≤ buf.length - i ∧
      len = headerLength (buf.drop i) c.syncLen
  | .invalid i len r k d => CheckedFrame c buf i len r k d
  | .recovered i len r k d => CheckedFrame c buf i len r k d ∧ d ≤ c.maxBitErrors

theorem recoverExit_evidence (c : Config) (buf : List Byte) (m : Nat) :
    (recoverExit c buf m).Evidence c buf m := by
  obtain hshort | hmin := Nat.lt_or_ge buf.length m
  · rw [recoverExit_tooShort c buf m hshort]
    trivial
  cases hfind : find buf c.sync c.maxBitErrors with
  | none =>
    rw [recoverExit_noSync c buf m hmin hfind]
    trivial
  | some i =>
    obtain ⟨hwindow, -⟩ := find_eq_some_iff.1 hfind
    obtain ⟨-, he⟩ | ⟨-, -, he⟩ | ⟨hrecheck, hheader, -, he⟩ | ⟨-, htotal, k, r, hk, hr, hverdict⟩ :=
      recoverExit_found c buf _ m i _ hmin hfind rfl rfl
    · exact he ▸ hfind
    · exact he ▸ hfind
    · rw [List.length_drop] at hrecheck hheader
      exact he ▸ ⟨hfind, hrecheck, hheader, rfl⟩
    · rw [List.length_drop] at htotal
      have hframe : CheckedFrame c buf i _ r k (cnt k r) :=
        ⟨hfind, by omega, rfl, hk, hr, rfl⟩
      obtain ⟨hnear, he⟩ | ⟨-, he⟩ := hverdict
      · exact he ▸ ⟨hframe, hnear⟩
      · exact he ▸ hframe

/-- A match ends inside the buffer (41_pattern_locator.md R151). -/
theorem add_syncLen_le_of_find {c : Config} {buf : List Byte} {e i : Nat}
    (h : find buf c.sync e = some i) : i + c.syncLen ≤ buf.length :=
  (find_eq_some_iff.1 h).1

/-- A row lies inside a buffer of `n` bytes: what the invariant (10_state.md R42 (b), (c), (e), (f)) and the
ranges of R32 ask of the columns, with the zeros of R35 and R36. -/
structure RecoverRow.Within (syncLen n : Nat) (r : RecoverRow) : Prop where
  match_inside : r.found = true → r.idx + syncLen ≤ n
  idx_zero : r.found = false → r.idx = 0
  length_le : r.length ≤ 65535
  csumRx_le : r.csumRx ≤ 255
  csumCalc_le : r.csumCalc ≤ 255
  csumDist_le : r.csumDist ≤ 8
  frame_size : r.frmValid = true → syncLen + 3 ≤ r.frmLen ∧ r.frmLen ≤ syncLen + 65538
  frame_then_remainder : r.frmValid = true → r.frmOff + r.frmLen = r.remOff
  frame_recovered : r.frmValid = true → r.outcome = .recovered
  no_frame : r.frmValid = false → r.frmOff = 0 ∧ r.frmLen = 0
  remOff_le : r.remOff ≤ n

/-- The row of an exit lies inside its buffer. -/
theorem RecoverExit.Evidence.recoverRow_within {c : Config} {buf : List Byte} {m : Nat} {e : RecoverExit}
    (h : e.Evidence c buf m) : (recoverRow c.syncLen e).Within c.syncLen buf.length := by
  cases e with
  | tooShort | noSync => constructor <;> simp [recoverRow]
  | tooShortSliced i | incompleteHeader i =>
    have hi := add_syncLen_le_of_find h
    constructor <;> simp [recoverRow, hi]
  | incompleteFrame i len =>
    obtain ⟨hfind, -, -, rfl⟩ := h
    have hi := add_syncLen_le_of_find hfind
    have hlen : headerLength (buf.drop i) c.syncLen ≤ 65535 := be16_le _ _
    constructor <;> simp [recoverRow, hi, hlen]
  | invalid i len r k d =>
    have hi := add_syncLen_le_of_find h.found
    have hlen : len ≤ 65535 := h.length_eq ▸ be16_le _ _
    have hd : d ≤ 8 := h.dist_eq ▸ cnt_le_eight k r
    have hend := h.whole
    have := r.isLt
    have := k.isLt
    rw [totalSize] at hend
    constructor <;> simp only [recoverRow, forall_const, reduceCtorEq, false_implies, and_self] <;> omega
  | recovered i len r k d =>
    obtain ⟨h, -⟩ := h
    have hi := add_syncLen_le_of_find h.found
    have hlen : len ≤ 65535 := h.length_eq ▸ be16_le _ _
    have hd : d ≤ 8 := h.dist_eq ▸ cnt_le_eight k r
    have hend := h.whole
    have := r.isLt
    have := k.isLt
    rw [totalSize] at hend
    constructor <;>
      simp only [recoverRow, totalSize, forall_const, reduceCtorEq, false_implies] <;> omega

/-- The row that RECOVER writes lies inside RX. -/
theorem recoverRow_rx_within (m : Nat) (s : State) :
    (recoverRow s.cfg.syncLen (recoverExit s.cfg s.rx m)).Within s.cfg.syncLen s.rxLen.toNat :=
  s.rx_length ▸ (recoverExit_evidence s.cfg s.rx m).recoverRow_within

end Sys2Proof.Machine
end

section
/-! Packaged inductions: a predicate that every command keeps is kept by every step, whatever the host's move
(20_memory.md R83), and then holds in every reachable state (00_scope.md R29). -/

namespace Sys2Proof.Machine

/-- A predicate on the state: it does not look at the model's own fields (logs 4 to 6) or at ERR, it holds
after reset, and every command keeps it. -/
structure KeptByCommands (P : State → Prop) : Prop where
  hostFields : ∀ (s : State) (moves : List HostMove) (a : Option Answer) (n : Nat), P s →
    P { s with pending := moves, answer := a, epoch := n }
  raise : ∀ (s : State) (e : Err), P s → P (s.raise e)
  resetOf : ∀ c : Config, P (State.resetOf c)
  after_exec : ∀ (i : Instr) (s t : State), P s → exec i s = .next t → P t

variable {P : State → Prop}

theorem KeptByCommands.after_step (hP : KeptByCommands P) {s t : State} (hs : P s)
    (h : step s = .next t) : P t := by
  obtain ⟨-, rfl⟩ | ⟨mv, rest, -, hmove⟩ := step_cases s t h
  · exact hs
  obtain ⟨w, i, -, -, hexec⟩ | ⟨w, e, -, -, rfl⟩ | ⟨n, -, rfl⟩ | ⟨space, addr, -, rfl⟩ | ⟨-, rfl⟩ :=
    hmove
  · exact hP.after_exec i _ t (hP.hostFields s rest s.answer (s.epoch + 1) hs) hexec
  · exact hP.raise _ .illegalCommand (hP.hostFields s rest s.answer (s.epoch + 1) hs)
  · exact hP.hostFields s rest _ s.epoch hs
  · exact hP.hostFields s rest _ s.epoch hs
  · exact hP.hostFields _ rest s.answer (s.epoch + 1) (hP.resetOf s.cfg)

theorem KeptByCommands.of_reachable (hP : KeptByCommands P) {c : Config} {s : State} (h : Reachable c s) :
    P s := by
  induction h with
  | start moves => exact hP.hostFields _ moves none 0 (hP.resetOf c)
  | step s t _ hstep ih => exact hP.after_step ih hstep

theorem cfg_eq_of_reachable {c : Config} {s : State} (h : Reachable c s) : s.cfg = c := by
  induction h with
  | start moves => rfl
  | step s t _ hstep ih => exact (step_cfg hstep).trans ih

end Sys2Proof.Machine
end

section
/-! The invariant of 10_state.md R42 and the ranges of R32, command by command. -/

namespace Sys2Proof.Machine

section
variable {s : State}

theorem inv_resetOf (c : Config) : Inv (State.resetOf c) := by
  constructor <;> simp [State.resetOf]

theorem inRange_resetOf (c : Config) : InRange (State.resetOf c) := by
  have := c.rxCapHoldsFrame
  constructor <;> simp [State.resetOf] <;> omega

/-- The frame that BUILD stores fits TXFRM (00_scope.md R20). -/
theorem length_range_of_build_txp {f : List Byte} (h : build s.cfg.sync s.txp = .ok f) :
    s.cfg.syncLen + 3 ≤ f.length ∧ f.length ≤ s.cfg.syncLen + 65538 := by
  have hlength := length_of_build_txp h
  obtain ⟨-, hb⟩ | ⟨hle, -⟩ := build_cases s.cfg.sync s.txp
  · exact nomatch hb.symm.trans h
  · rw [s.txp_length] at hle
    omega

/-- What PARSE returns lies inside RX (42_frame_codec.md R171). -/
theorem parsed_inside {off : Nat} {p : ParsedFrame} (h : parse (view s.rx off) s.cfg.syncLen = .ok p) :
    off + s.cfg.syncLen + 2 + p.length < s.rxLen.toNat ∧ p.length ≤ 65535 := by
  obtain ⟨-, hp⟩ | ⟨-, -, hp⟩ | ⟨-, htotal, hp⟩ := parse_cases (view s.rx off) s.cfg.syncLen
  · exact nomatch hp.symm.trans h
  · exact nomatch hp.symm.trans h
  · obtain rfl := Except.ok.inj (hp.symm.trans h)
    rw [List.length_drop, s.rx_length, totalSize] at htotal
    exact ⟨by dsimp only; omega, be16_le _ _⟩

/-- A discard keeps the invariant, however many bytes go: it writes 0 to every slice register (R41). -/
theorem Inv.discard (h : Inv s) (k : Nat) : Inv (s.discard k) :=
  { h with
    rxLen_le := by
      have := h.rxLen_le
      rw [s.discard_rxLen_toNat]
      exact Nat.le_trans (Nat.sub_le _ k) this
    remOff_le := Nat.zero_le _
    frame_size := nofun
    frame_inside := nofun
    frame_then_remainder := nofun
    payload_inside := Nat.zero_le _
    match_inside := nofun
    frame_recovered := nofun }

/-- A discard keeps the ranges: every slice register is 0. -/
theorem InRange.discard (h : InRange s) (k : Nat) : InRange (s.discard k) :=
  have hcap : 0 < s.cfg.rxCap := Nat.lt_of_le_of_lt (Nat.zero_le _) h.idx_lt
  { h with
    idx_lt := hcap
    frmOff_lt := hcap
    frmLen_range := .inl rfl
    remOff_le := Nat.zero_le _
    payOff_le := Nat.zero_le _
    payLen_le := Nat.zero_le _
    idx_zero := fun _ => rfl
    frmOff_zero := fun _ => rfl
    frmLen_zero := fun _ => rfl }

/-- A row that lies inside RX keeps the invariant, whatever was held before. -/
theorem Inv.writeRow (h : Inv s) {r : RecoverRow} (hfits : r.Fits)
    (hwithin : r.Within s.cfg.syncLen s.rxLen.toNat) : Inv (s.writeRow r).done :=
  have hidx := word_toNat_of_lt hfits.idx
  have hoff := word_toNat_of_lt hfits.frmOff
  have hlen := word_toNat_of_lt hfits.frmLen
  have hrem := word_toNat_of_lt hfits.remOff
  { h with
    remOff_le := hrem.le.trans hwithin.remOff_le
    frame_size := fun hv => (hwithin.frame_size hv).1.trans hlen.ge
    frame_inside := fun hv => by
      have := hwithin.frame_then_remainder hv
      have := hwithin.remOff_le
      simp only [State.done_frmOff, State.done_frmLen, State.done_rxLen, State.writeRow_frmOff,
        State.writeRow_frmLen, State.writeRow_rxLen, hoff, hlen]
      omega
    frame_then_remainder := fun hv => by
      simp only [State.done_frmOff, State.done_frmLen, State.done_remOff, State.writeRow_frmOff,
        State.writeRow_frmLen, State.writeRow_remOff, hoff, hlen, hrem]
      exact hwithin.frame_then_remainder hv
    match_inside := fun hf => by
      simp only [State.done_idx, State.writeRow_idx, hidx]
      exact hwithin.match_inside hf
    frame_recovered := hwithin.frame_recovered }

/-- A row that lies inside RX keeps the ranges. -/
theorem InRange.writeRow (h : InRange s) (hinv : Inv s) {r : RecoverRow} (hfits : r.Fits)
    (hwithin : r.Within s.cfg.syncLen s.rxLen.toNat) : InRange (s.writeRow r).done := by
  have hcap := hinv.rxLen_le
  have hsync : 1 ≤ s.cfg.syncLen := s.cfg.syncNonempty
  have hpos : 0 < s.cfg.rxCap := Nat.lt_of_le_of_lt (Nat.zero_le _) h.idx_lt
  have hrem := hwithin.remOff_le
  have hidxLt : r.idx < s.cfg.rxCap := by
    cases hf : r.found with
    | false => exact hwithin.idx_zero hf ▸ hpos
    | true =>
      have := hwithin.match_inside hf
      omega
  have hoffLt : r.frmOff < s.cfg.rxCap := by
    cases hv : r.frmValid with
    | false => exact (hwithin.no_frame hv).1 ▸ hpos
    | true =>
      have := hwithin.frame_then_remainder hv
      have := (hwithin.frame_size hv).1
      omega
  have hlenRange : word r.frmLen = 0 ∨
      (s.cfg.syncLen + 3 ≤ (word r.frmLen).toNat ∧ (word r.frmLen).toNat ≤ s.cfg.syncLen + 65538) := by
    cases hv : r.frmValid with
    | false => exact .inl (congrArg word (hwithin.no_frame hv).2)
    | true => exact .inr ((word_toNat_of_lt hfits.frmLen).symm ▸ hwithin.frame_size hv)
  exact { h with
    idx_lt := (word_toNat_of_lt hfits.idx).trans_lt hidxLt
    length_le := (word_toNat_of_lt hfits.length).trans_le hwithin.length_le
    csumRx_le := (word_toNat_of_lt hfits.csumRx).trans_le hwithin.csumRx_le
    csumCalc_le := (word_toNat_of_lt hfits.csumCalc).trans_le hwithin.csumCalc_le
    csumDist_le := (word_toNat_of_lt hfits.csumDist).trans_le hwithin.csumDist_le
    frmOff_lt := (word_toNat_of_lt hfits.frmOff).trans_lt hoffLt
    frmLen_range := hlenRange
    remOff_le := (word_toNat_of_lt hfits.remOff).trans_le (hrem.trans hcap)
    idx_zero := fun hf => congrArg word (hwithin.idx_zero hf)
    frmOff_zero := fun hv => congrArg word (hwithin.no_frame hv).1
    frmLen_zero := fun hv => congrArg word (hwithin.no_frame hv).2 }

end

section
variable {s t : State}

/-- Every command keeps the invariant (R42). -/
theorem Inv.after_exec {i : Instr} (hinv : Inv s) (h : exec i s = .next t) : Inv t := by
  have hrx := s.rxLen.isLt
  cases i with
  | nop | cnt =>
    obtain rfl := Host.Outcome.next.inj h
    exact { hinv with }
  | txclr =>
    obtain rfl := Host.Outcome.next.inj h
    exact { hinv with txpLen_le := Nat.zero_le _ }
  | find =>
    obtain ⟨-, rfl⟩ | ⟨i, hfind, rfl⟩ := execFind_cases h
    · exact { hinv with match_inside := nofun }
    · have hi := add_syncLen_le_of_find hfind
      rw [s.rx_length] at hi
      exact { hinv with match_inside := fun _ => (word_toNat_of_find_rx hfind).symm ▸ hi }
  | parse off =>
    obtain ⟨e, -, rfl⟩ | ⟨p, hp, rfl⟩ := execParse_cases h
    · exact { hinv with }
    · obtain ⟨hend, -⟩ := parsed_inside hp
      refine { hinv with payload_inside := ?_ }
      simp only [State.done_payOff, State.done_payLen, State.done_rxLen]
      rw [word_toNat_of_lt (by omega), word_toNat_of_lt (by omega)]
      omega
  | extract =>
    obtain ⟨-, rfl⟩ | ⟨hv, rfl⟩ := execExtract_cases h
    · exact { hinv with }
    · have hsize := hinv.frame_size hv
      have hend := hinv.frame_inside hv
      refine { hinv with payload_inside := ?_ }
      simp only [State.done_payOff, State.done_payLen, State.done_rxLen]
      rw [word_toNat_of_lt (by omega), word_toNat_of_lt (by omega)]
      omega
  | build =>
    obtain ⟨e, -, rfl⟩ | ⟨f, hb, rfl⟩ := execBuild_cases h
    · exact { hinv with }
    · exact { hinv with txfLen_le := (word_toNat_of_build hb).trans_le (length_range_of_build_txp hb).2 }
  | recover m =>
    obtain rfl := Host.Outcome.next.inj h
    exact hinv.writeRow (recoverRow_rx_fits m s) (recoverRow_rx_within m s)
  | rxpush b =>
    obtain ⟨-, rfl⟩ | ⟨hroom, rfl⟩ := execRxpush_cases h
    · exact { hinv with }
    · have hlen := pushed_length s.rxLen s.cfg.rxCap hroom s.cfg.rxCapBounded
      have hgrow : s.rxLen.toNat ≤ (s.rxLen + 1).toNat := hlen ▸ Nat.le_succ _
      exact { hinv with
        rxLen_le := hlen.trans_le hroom
        remOff_le := hinv.remOff_le.trans hgrow
        frame_inside := fun hv => (hinv.frame_inside hv).trans hgrow
        payload_inside := hinv.payload_inside.trans hgrow
        match_inside := fun hf => (hinv.match_inside hf).trans hgrow }
  | rxaccept =>
    obtain rfl := Host.Outcome.next.inj h
    exact hinv.discard _
  | rxdrop n =>
    obtain rfl := Host.Outcome.next.inj h
    exact hinv.discard _
  | rxclr =>
    obtain rfl := Host.Outcome.next.inj h
    exact s.discard_rxLen ▸ hinv.discard _
  | txpush b =>
    obtain ⟨-, rfl⟩ | ⟨hroom, rfl⟩ := execTxpush_cases h
    · exact { hinv with }
    · have hlen := pushed_length s.txpLen s.cfg.txpCap hroom s.cfg.txpCapBounded
      exact { hinv with txpLen_le := hlen.trans_le hroom }

/-- Every command keeps the ranges (R32). -/
theorem InRange.after_exec {i : Instr} (hrange : InRange s) (hinv : Inv s) (h : exec i s = .next t) :
    InRange t := by
  have hrx := s.rxLen.isLt
  have hcap := hinv.rxLen_le
  have hsync : 1 ≤ s.cfg.syncLen := s.cfg.syncNonempty
  have hpos : 0 < s.cfg.rxCap := Nat.lt_of_le_of_lt (Nat.zero_le _) hrange.idx_lt
  cases i with
  | nop | txclr =>
    obtain rfl := Host.Outcome.next.inj h
    exact { hrange with }
  | cnt a b =>
    obtain rfl := Host.Outcome.next.inj h
    exact { hrange with cnt_le := (word_cnt_toNat a b).trans_le (cnt_le_eight a b) }
  | find =>
    obtain ⟨-, rfl⟩ | ⟨i, hfind, rfl⟩ := execFind_cases h
    · exact { hrange with idx_lt := hpos, idx_zero := fun _ => rfl }
    · have hi := add_syncLen_le_of_find hfind
      rw [s.rx_length] at hi
      have hlt : i < s.cfg.rxCap := by omega
      exact { hrange with
        idx_lt := (word_toNat_of_find_rx hfind).trans_lt hlt
        idx_zero := nofun }
  | parse off =>
    obtain ⟨e, -, rfl⟩ | ⟨p, hp, rfl⟩ := execParse_cases h
    · exact { hrange with }
    · obtain ⟨hend, hlen⟩ := parsed_inside hp
      have hlenLe : (word p.length).toNat ≤ 65535 := (word_toNat_of_lt (by omega)).trans_le hlen
      have hoff : off + s.cfg.syncLen + 2 ≤ s.cfg.rxCap := by omega
      have hchk : p.checksum.toNat ≤ 255 := Nat.le_of_lt_succ p.checksum.isLt
      exact { hrange with
        length_le := hlenLe
        payLen_le := hlenLe
        payOff_le := (word_toNat_of_lt (by omega)).trans_le hoff
        csumRx_le := (word_toNat_of_lt (by omega)).trans_le hchk }
  | extract =>
    obtain ⟨-, rfl⟩ | ⟨hv, rfl⟩ := execExtract_cases h
    · exact { hrange with }
    · have hsize := hinv.frame_size hv
      have hend := hinv.frame_inside hv
      have hoff : s.frmOff.toNat + s.cfg.syncLen + 2 ≤ s.cfg.rxCap := by omega
      have hlen : s.frmLen.toNat - s.cfg.syncLen - 3 ≤ 65535 := by
        obtain hzero | ⟨-, hle⟩ := hrange.frmLen_range
        · rw [hzero] at hsize
          exact absurd hsize (Nat.not_succ_le_zero _)
        · omega
      exact { hrange with
        payOff_le := (word_toNat_of_lt (by omega)).trans_le hoff
        payLen_le := (word_toNat_of_lt (by omega)).trans_le hlen }
  | build =>
    obtain ⟨e, -, rfl⟩ | ⟨f, hb, rfl⟩ := execBuild_cases h
    · exact { hrange with }
    · exact { hrange with
        txfLen_range := .inr ((word_toNat_of_build hb).symm ▸ length_range_of_build_txp hb) }
  | recover m =>
    obtain rfl := Host.Outcome.next.inj h
    exact hrange.writeRow hinv (recoverRow_rx_fits m s) (recoverRow_rx_within m s)
  | rxpush b => obtain ⟨-, rfl⟩ | ⟨-, rfl⟩ := execRxpush_cases h <;> exact { hrange with }
  | rxaccept =>
    obtain rfl := Host.Outcome.next.inj h
    exact hrange.discard _
  | rxdrop n =>
    obtain rfl := Host.Outcome.next.inj h
    exact hrange.discard _
  | rxclr =>
    obtain rfl := Host.Outcome.next.inj h
    exact s.discard_rxLen ▸ hrange.discard _
  | txpush b => obtain ⟨-, rfl⟩ | ⟨-, rfl⟩ := execTxpush_cases h <;> exact { hrange with }

end

theorem inv_keptByCommands : KeptByCommands Inv where
  hostFields _ _ _ _ h := { h with }
  raise _ _ h := { h with }
  resetOf := inv_resetOf
  after_exec _ _ _ h hexec := h.after_exec hexec

theorem inv_inRange_keptByCommands : KeptByCommands fun s => Inv s ∧ InRange s where
  hostFields _ _ _ _ h := ⟨{ h.1 with }, { h.2 with }⟩
  raise _ _ h := ⟨{ h.1 with }, { h.2 with }⟩
  resetOf c := ⟨inv_resetOf c, inRange_resetOf c⟩
  after_exec _ _ _ h hexec := ⟨h.1.after_exec hexec, h.2.after_exec h.1 hexec⟩

end Sys2Proof.Machine
end

section
/-! The form of the memories (20_memory.md sections 1 and 3; log 3), command by command: only pushes, discards,
the two clears and BUILD touch a memory. -/

namespace Sys2Proof.Machine

/-- The three memories in canonical form (log 3). -/
structure MemWf (s : State) : Prop where
  rxbuf : s.rxbuf.wf
  txpay : s.txpay.wf
  txfrm : s.txfrm.wf

theorem memWf_resetOf (c : Config) : MemWf (State.resetOf c) :=
  ⟨Memory.wf_empty, Memory.wf_empty, Memory.wf_empty⟩

theorem memInv_resetOf (c : Config) : MemInv (State.resetOf c) where
  rxbuf_wf := Memory.wf_empty
  txpay_wf := Memory.wf_empty
  txfrm_wf := Memory.wf_empty
  rxbuf_inside := nofun
  txpay_inside := nofun
  txfrm_inside := nofun
  rxbuf_held _ ha := absurd ha (Nat.not_lt_zero _)
  txpay_held _ ha := absurd ha (Nat.not_lt_zero _)
  txfrm_held _ ha := absurd ha (Nat.not_lt_zero _)

/-- A push keeps every valid byte held, the new one included. -/
theorem Memory.isSome_read_write {m : Memory} {n : Nat} {b : Byte}
    (h : ∀ a, a < n → (m.read a).isSome = true) (a : Nat) (ha : a < n + 1) :
    ((m.write n b).read a).isSome = true := by
  rw [Memory.read_write]
  split
  · rfl
  · exact h a (by omega)

section
variable {s t : State}

theorem MemWf.discard (h : MemWf s) (k : Nat) : MemWf (s.discard k) :=
  { h with rxbuf := Memory.wf_ofBytes _ }

/-- Every command keeps the canonical form, in every state (log 3). -/
theorem MemWf.after_exec {i : Instr} (hwf : MemWf s) (h : exec i s = .next t) : MemWf t := by
  cases i with
  | nop | cnt | recover =>
    obtain rfl := Host.Outcome.next.inj h
    exact { hwf with }
  | txclr =>
    obtain rfl := Host.Outcome.next.inj h
    exact { hwf with txpay := Memory.wf_empty }
  | find => obtain ⟨-, rfl⟩ | ⟨i, -, rfl⟩ := execFind_cases h <;> exact { hwf with }
  | parse off => obtain ⟨e, -, rfl⟩ | ⟨p, -, rfl⟩ := execParse_cases h <;> exact { hwf with }
  | extract => obtain ⟨-, rfl⟩ | ⟨-, rfl⟩ := execExtract_cases h <;> exact { hwf with }
  | build =>
    obtain ⟨e, -, rfl⟩ | ⟨f, -, rfl⟩ := execBuild_cases h
    · exact { hwf with }
    · exact { hwf with txfrm := Memory.wf_writeBytes f _ 0 hwf.txfrm }
  | rxpush b =>
    obtain ⟨-, rfl⟩ | ⟨-, rfl⟩ := execRxpush_cases h
    · exact { hwf with }
    · exact { hwf with rxbuf := Memory.wf_write _ _ b hwf.rxbuf }
  | rxaccept =>
    obtain rfl := Host.Outcome.next.inj h
    exact hwf.discard _
  | rxdrop n =>
    obtain rfl := Host.Outcome.next.inj h
    exact hwf.discard _
  | rxclr =>
    obtain rfl := Host.Outcome.next.inj h
    exact s.discard_rxLen ▸ hwf.discard _
  | txpush b =>
    obtain ⟨-, rfl⟩ | ⟨-, rfl⟩ := execTxpush_cases h
    · exact { hwf with }
    · exact { hwf with txpay := Memory.wf_write _ _ b hwf.txpay }

/-- After a discard RXBUF lists the bytes of RX and no other. -/
theorem MemInv.discard (h : MemInv s) (hinv : Inv s) (k : Nat) : MemInv (s.discard k) :=
  have hlength : (s.rx.drop k).length = (s.discard k).rxLen.toNat := by
    rw [List.length_drop, s.rx_length, s.discard_rxLen_toNat]
  { h with
    rxbuf_wf := Memory.wf_ofBytes _
    rxbuf_inside := Memory.inside_ofBytes _ _ (hlength.trans_le (hinv.discard k).rxLen_le)
    rxbuf_held := fun a ha => by
      rw [← hlength] at ha
      refine (congrArg Option.isSome (Memory.read_ofBytes (s.rx.drop k) a)).trans ?_
      rw [List.getElem?_eq_getElem ha, Option.isSome_some] }

/-- Every command keeps the memories inside their spaces with every valid byte held. -/
theorem MemInv.after_exec {i : Instr} (hmem : MemInv s) (hinv : Inv s) (h : exec i s = .next t) : MemInv t := by
  cases i with
  | nop | cnt | recover =>
    obtain rfl := Host.Outcome.next.inj h
    exact { hmem with }
  | txclr =>
    obtain rfl := Host.Outcome.next.inj h
    exact { hmem with
      txpay_wf := Memory.wf_empty
      txpay_inside := nofun
      txpay_held := fun _ ha => absurd ha (Nat.not_lt_zero _) }
  | find => obtain ⟨-, rfl⟩ | ⟨i, -, rfl⟩ := execFind_cases h <;> exact { hmem with }
  | parse off => obtain ⟨e, -, rfl⟩ | ⟨p, -, rfl⟩ := execParse_cases h <;> exact { hmem with }
  | extract => obtain ⟨-, rfl⟩ | ⟨-, rfl⟩ := execExtract_cases h <;> exact { hmem with }
  | build =>
    obtain ⟨e, -, rfl⟩ | ⟨f, hb, rfl⟩ := execBuild_cases h
    · exact { hmem with }
    · obtain ⟨-, hfits⟩ := length_range_of_build_txp hb
      refine { hmem with
        txfrm_wf := Memory.wf_writeBytes f _ 0 hmem.txfrm_wf
        txfrm_inside := Memory.inside_writeBytes f _ 0 _ ((Nat.zero_add _).trans_le hfits)
          hmem.txfrm_inside
        txfrm_held := fun a ha => ?_ }
      have ha' : a < f.length := (word_toNat_of_build hb) ▸ ha
      simp [ha']
  | rxpush b =>
    obtain ⟨-, rfl⟩ | ⟨hroom, rfl⟩ := execRxpush_cases h
    · exact { hmem with }
    · have hlen := pushed_length s.rxLen s.cfg.rxCap hroom s.cfg.rxCapBounded
      exact { hmem with
        rxbuf_wf := Memory.wf_write _ _ b hmem.rxbuf_wf
        rxbuf_inside := Memory.inside_write _ _ _ b hroom hmem.rxbuf_inside
        rxbuf_held := fun a ha => Memory.isSome_read_write hmem.rxbuf_held a (hlen ▸ ha) }
  | rxaccept =>
    obtain rfl := Host.Outcome.next.inj h
    exact hmem.discard hinv _
  | rxdrop n =>
    obtain rfl := Host.Outcome.next.inj h
    exact hmem.discard hinv _
  | rxclr =>
    obtain rfl := Host.Outcome.next.inj h
    exact s.discard_rxLen ▸ hmem.discard hinv _
  | txpush b =>
    obtain ⟨-, rfl⟩ | ⟨hroom, rfl⟩ := execTxpush_cases h
    · exact { hmem with }
    · have hlen := pushed_length s.txpLen s.cfg.txpCap hroom s.cfg.txpCapBounded
      exact { hmem with
        txpay_wf := Memory.wf_write _ _ b hmem.txpay_wf
        txpay_inside := Memory.inside_write _ _ _ b hroom hmem.txpay_inside
        txpay_held := fun a ha => Memory.isSome_read_write hmem.txpay_held a (hlen ▸ ha) }

end

theorem memWf_keptByCommands : KeptByCommands MemWf where
  hostFields _ _ _ _ h := { h with }
  raise _ _ h := { h with }
  resetOf := memWf_resetOf
  after_exec _ _ _ h hexec := h.after_exec hexec

theorem inv_memInv_keptByCommands : KeptByCommands fun s => Inv s ∧ MemInv s where
  hostFields _ _ _ _ h := ⟨{ h.1 with }, { h.2 with }⟩
  raise _ _ h := ⟨{ h.1 with }, { h.2 with }⟩
  resetOf c := ⟨inv_resetOf c, memInv_resetOf c⟩
  after_exec _ _ _ h hexec := ⟨h.1.after_exec hexec, h.2.after_exec h.1 hexec⟩

end Sys2Proof.Machine
end

section
/-! Every command answers when the invariant holds (70_reset_and_hazards.md section 3), and what the two pushes
do where it does not (log 8). -/

namespace Sys2Proof.Machine

section
variable {s : State}

/-- Only a push can stop, and only above capacity (log 8). -/
theorem Inv.exists_exec_next (hinv : Inv s) (i : Instr) : ∃ t, exec i s = .next t := by
  cases i with
  | nop | cnt | recover | rxaccept | rxdrop | rxclr | txclr => exact ⟨_, rfl⟩
  | find =>
    cases hfind : find s.rx s.cfg.sync s.cfg.maxBitErrors with
    | none => exact ⟨_, exec_find_of_none hfind⟩
    | some i => exact ⟨_, exec_find_of_some hfind⟩
  | parse off =>
    cases hp : parse (view s.rx off) s.cfg.syncLen with
    | error e => exact ⟨_, exec_parse_of_error hp⟩
    | ok p => exact ⟨_, exec_parse_of_ok hp⟩
  | extract =>
    cases hv : s.frmValid with
    | false => exact ⟨_, exec_extract_of_not_frmValid hv⟩
    | true => exact ⟨_, exec_extract_of_frmValid hv⟩
  | build =>
    obtain hgt | hle := Nat.lt_or_ge 65535 s.txpLen.toNat
    · exact ⟨_, exec_build_of_gt hgt⟩
    · exact ⟨_, exec_build_of_ok (build_of_length_le (s.txp_length.symm ▸ hle))⟩
  | rxpush b =>
    obtain hroom | hfull := Nat.lt_or_eq_of_le hinv.rxLen_le
    · exact ⟨_, exec_rxpush_of_lt hroom⟩
    · exact ⟨_, exec_rxpush_of_eq hfull⟩
  | txpush b =>
    obtain hroom | hfull := Nat.lt_or_eq_of_le hinv.txpLen_le
    · exact ⟨_, exec_txpush_of_lt hroom⟩
    · exact ⟨_, exec_txpush_of_eq hfull⟩

/-- A word that is no command raises an error, which is a next state too (60_exceptions.md R282). -/
theorem Inv.exists_issue_next (hinv : Inv s) (w : Word) : ∃ t, issue w s = .next t := by
  cases hw : decode w with
  | ok i =>
    rw [issue_ok w i s hw]
    exact hinv.exists_exec_next i
  | error e => exact ⟨_, issue_error w e s hw⟩

end

/-- Above capacity the byte to be stored does not exist (log 8). -/
theorem pushByte_of_gt {m : Memory} {cap : Nat} {len : Word} {b : Byte} (h : cap < len.toNat) :
    pushByte m cap len b = .outside := by
  obtain ⟨heq, -⟩ | ⟨-, hp⟩ | ⟨hlt, -⟩ := pushByte_cases m cap len b
  · omega
  · exact hp
  · omega

end Sys2Proof.Machine
end

section
/-! What a host read gives below and past the valid length of a space (20_memory.md section 1, R80). -/

namespace Sys2Proof.Machine

variable (s : State)

/-- Below the valid length of a space a host read gives the byte of the space's sequence. -/
theorem memRead_eq_getElem_bytes {sp : Space} {a : Nat} (h : a < (s.bytes sp (s.validLen sp)).length) :
    memRead s sp.number a = (s.bytes sp (s.validLen sp))[a] := by
  rw [memRead_of_lt_validLen s (Nat.lt_of_lt_of_eq h (s.bytes_length sp _))]
  simp only [State.bytes, List.getElem_map, List.getElem_range]

/-- Past the valid length of a space a host read gives the free value of the byte (log 4). -/
theorem memRead_of_validLen_le {sp : Space} {a : Nat} (h : s.validLen sp ≤ a) :
    memRead s sp.number a = Config.unspecifiedByte s.epoch sp.number a := by
  simp only [memRead, spaceOfNumber_number, if_neg (Nat.not_lt.2 h), State.unspecified]

/-- There is no space above 3 (R70). -/
theorem spaceOfNumber_of_gt {n : Nat} (h : 3 < n) : spaceOfNumber n = none := by
  obtain ⟨k, rfl⟩ := Nat.exists_eq_add_of_le' h
  rfl

end Sys2Proof.Machine
end

section
/-! The statements on invariants (10_state.md R42, R32; 20_memory.md sections 1 and 3; 70_reset_and_hazards.md
section 3). -/

namespace Sys2Proof.Machine

/-- Settles O54: command by command. -/
theorem stepKeepsInvariant : Obligations.StepKeepsInvariant :=
  fun _ _ hinv h => inv_keptByCommands.after_step hinv h

/-- Settles O55: the ranges lean on the invariant, which bounds the held frame and RX. -/
theorem stepKeepsRegisterRanges : Obligations.StepKeepsRegisterRanges :=
  fun _ _ hinv hrange h => inv_inRange_keptByCommands.after_step ⟨hinv, hrange⟩ h

/-- Settles O56: the canonical form in every state, the rest with the bounds on the lengths. -/
theorem stepKeepsMemories : Obligations.StepKeepsMemories := by
  refine ⟨fun s t hwf h => ?form, fun s t hinv hmem h => ?held⟩
  case form =>
    obtain ⟨hrxbuf, htxpay, htxfrm⟩ := hwf
    obtain ⟨hrxbuf', htxpay', htxfrm'⟩ := memWf_keptByCommands.after_step ⟨hrxbuf, htxpay, htxfrm⟩ h
    exact ⟨hrxbuf', htxpay', htxfrm'⟩
  case held => exact (inv_memInv_keptByCommands.after_step ⟨hinv, hmem⟩ h).2

/-- Settles O57: what holds at reset and is kept by every command holds in every reachable state. -/
theorem reachableStatesMeetInvariants : Obligations.ReachableStatesMeetInvariants := by
  intro c s h
  obtain ⟨hinv, hrange⟩ := inv_inRange_keptByCommands.of_reachable h
  obtain ⟨-, hmem⟩ := inv_memInv_keptByCommands.of_reachable h
  exact ⟨hinv, hrange, hmem, cfg_eq_of_reachable h⟩

/-- Settles O58: reads, reset and an idle step always answer; an issued word runs a command under the
invariant, which the move's bookkeeping does not touch. -/
theorem stepAlwaysAnswersNext : Obligations.StepAlwaysAnswersNext := by
  intro s hinv
  cases hp : s.pending with
  | nil => exact ⟨s, step_nil s hp⟩
  | cons mv rest =>
    rw [step_cons s mv rest hp]
    cases mv with
    | issue w =>
      exact (inv_keptByCommands.hostFields s rest s.answer (s.epoch + 1) hinv).exists_issue_next w
    | regRead | memRead | reset => exact ⟨_, rfl⟩

/-- Settles O53: every register is 0 and every memory empty. -/
theorem resetMeetsInvariants : Obligations.ResetMeetsInvariants := by
  refine ⟨fun c => ⟨inv_resetOf c, inRange_resetOf c, memInv_resetOf c⟩, fun s t rest h => ?_⟩
  obtain rfl := Host.Outcome.next.inj ((step_reset s rest).symm.trans h)
  exact ⟨{ inv_resetOf s.cfg with }, { inRange_resetOf s.cfg with }, { memInv_resetOf s.cfg with },
    fun a => ⟨Memory.read_empty a, Memory.read_empty a, Memory.read_empty a⟩⟩

/-- Settles O40: the third way of a push. -/
theorem pushOutsideMemoryFaults : Obligations.PushOutsideMemoryFaults := by
  refine ⟨fun s b h => ?rx, fun s b h => ?tx⟩
  case rx =>
    rw [exec, execRxpush, pushByte_of_gt h]
    rfl
  case tx =>
    rw [exec, execTxpush, pushByte_of_gt h]
    rfl

/-- Settles O50: space by space, below the valid length and past it. -/
theorem memReadFollowsValidPrefix : Obligations.MemReadFollowsValidPrefix := by
  intro s a
  refine ⟨fun h => memRead_eq_getElem_bytes s (sp := .rxbuf) h,
    fun h => memRead_eq_getElem_bytes s (sp := .txpay) h,
    fun h => memRead_eq_getElem_bytes s (sp := .txfrm) h,
    fun h => memRead_of_validLen_le s (sp := .rxbuf) h,
    fun h => memRead_of_validLen_le s (sp := .txpay) h,
    fun h => memRead_of_validLen_le s (sp := .txfrm) h,
    fun h => memRead_of_validLen_le s (sp := .syncrom) h, fun space h => ?_⟩
  rw [memRead, spaceOfNumber_of_gt h]
  rfl

end Sys2Proof.Machine
end

section
/-! The distance laws of the bit error counter (40_bit_error_counter.md R142), from the number of differing
positions. -/

namespace Sys2Proof.Machine

/-- A position counted on the left is counted once or twice on the right. -/
theorem countP_le_add {α : Type} {p q r : α → Bool} (h : ∀ x, p x = true → q x = true ∨ r x = true)
    (l : List α) : l.countP p ≤ l.countP q + l.countP r := by
  induction l with
  | nil => exact Nat.le_refl 0
  | cons x xs ih =>
    rw [List.countP_cons, List.countP_cons, List.countP_cons]
    cases hp : p x with
    | false => simp only [Bool.false_eq_true, if_false]; omega
    | true => obtain hq | hr := h x hp <;> simp only [*, if_true] <;> omega

/-- The drawn positions among the `n` positions from `lo` on are all of them, when they are distinct and lie
there. -/
theorem countP_mem_eq_length {ks : List Nat} {lo n : Nat} (hnodup : ks.Nodup)
    (hinside : ∀ k ∈ ks, lo ≤ k ∧ k < lo + n) :
    (List.range n).countP (fun j => decide (lo + j ∈ ks)) = ks.length := by
  have hperm : (((List.range n).map (lo + ·)).filter fun k => decide (k ∈ ks)).Perm ks := by
    rw [List.perm_ext_iff_of_nodup _ hnodup]
    · intro k
      simp only [List.mem_filter, List.mem_map, List.mem_range, decide_eq_true_eq]
      refine ⟨And.right, fun hk => ⟨⟨k - lo, ?_⟩, hk⟩⟩
      have := hinside k hk
      omega
    · exact (List.nodup_range.map fun _ _ => Nat.add_left_cancel).filter _
  rw [← hperm.length_eq, ← List.countP_eq_length_filter, List.countP_map]
  rfl

/-- Bytes with no differing position are equal (R142 (b)). -/
theorem cnt_eq_zero_iff (a b : Byte) : cnt a b = 0 ↔ a = b := by
  constructor
  · intro h
    rw [cnt_eq_countP, List.countP_eq_zero] at h
    refine BitVec.eq_of_getLsbD_eq fun k hk => ?_
    simpa using h k (List.mem_range.2 hk)
  · rintro rfl
    exact cnt_self a

/-- A position at which `a` and `c` differ is one at which `b` differs from `a` or from `c` (R142 (d)). -/
theorem cnt_triangle (a b c : Byte) : cnt a c ≤ cnt a b + cnt b c := by
  rw [cnt_eq_countP, cnt_eq_countP, cnt_eq_countP]
  refine countP_le_add (fun k => ?_) _
  cases a.getLsbD k <;> cases b.getLsbD k <;> simp

theorem getLsbD_one_shiftLeft {j : Nat} (hj : j < 8) (k : Nat) :
    (1#8 <<< k).getLsbD j = decide (j = k) := by
  rw [BitVec.getLsbD_shiftLeft, BitVec.getLsbD_one]
  by_cases h : j = k
  · simp [h, h ▸ hj]
  · simp only [h, decide_false, Bool.and_eq_false_iff, Bool.not_eq_false', decide_eq_true_eq,
      decide_eq_false_iff_not]
    omega

/-- Flipping distinct positions one by one inverts the bits at those positions and no other. -/
theorem getLsbD_foldl_flip {ks : List Nat} (hnodup : ks.Nodup) (a : Byte) {j : Nat} (hj : j < 8) :
    (ks.foldl (fun x k => x ^^^ (1#8 <<< k)) a).getLsbD j = (a.getLsbD j ^^ decide (j ∈ ks)) := by
  induction ks generalizing a with
  | nil => simp
  | cons k ks ih =>
    obtain ⟨hk, hks⟩ := List.nodup_cons.1 hnodup
    rw [List.foldl_cons, ih hks, BitVec.getLsbD_xor, getLsbD_one_shiftLeft hj, Bool.xor_assoc]
    by_cases h : j = k
    · subst h
      simp [hk]
    · simp [h]

/-- Flipped positions are counted (R142 (e)). -/
theorem cnt_foldl_flip {ks : List Nat} (hnodup : ks.Nodup) (hinside : ∀ k ∈ ks, k < 8) (a : Byte) :
    cnt a (ks.foldl (fun x k => x ^^^ (1#8 <<< k)) a) = ks.length := by
  have hcount := countP_mem_eq_length (lo := 0) (n := 8) hnodup
    fun k hk => ⟨Nat.zero_le k, by have := hinside k hk; omega⟩
  rw [cnt_eq_countP, ← hcount]
  refine List.countP_congr fun j hj => ?_
  rw [getLsbD_foldl_flip hnodup a (List.mem_range.1 hj), Nat.zero_add]
  cases a.getLsbD j <;> simp

/-- Only the complement differs at every position (R142 (f)). -/
theorem cnt_eq_eight_iff (a b : Byte) : cnt a b = 8 ↔ b = a ^^^ 0xFF := by
  have hcomplement : a ^^^ 0xFF = ~~~a := BitVec.xor_allOnes
  rw [hcomplement]
  constructor
  · intro h
    rw [cnt_eq_countP] at h
    have hdiffer := List.countP_eq_length.1 (h.trans List.length_range.symm)
    refine BitVec.eq_of_getLsbD_eq fun k hk => ?_
    have hbit := hdiffer k (List.mem_range.2 hk)
    rw [BitVec.getLsbD_not, decide_eq_true hk, Bool.true_and]
    revert hbit
    cases a.getLsbD k <;> cases b.getLsbD k <;> decide
  · rintro rfl
    exact cnt_not a

end Sys2Proof.Machine
end

section
/-! The search as the buffer changes (41_pattern_locator.md section 2): a window's total follows the bytes of the
window alone, so it is the same in a longer buffer and in a suffix. -/

namespace Sys2Proof.Machine

/-- A window's total depends on the window's bytes only (R150). -/
theorem windowErr_eq_take (buf pat : List Byte) (i : Nat) :
    windowErr buf pat i = (List.zipWith cnt ((buf.drop i).take pat.length) pat).sum := by
  have hcut : (List.zipWith cnt (buf.drop i) pat).take pat.length = List.zipWith cnt (buf.drop i) pat :=
    List.take_of_length_le (by rw [List.length_zipWith]; exact Nat.min_le_right ..)
  rw [windowErr, ← hcut, List.take_zipWith, List.take_length]

theorem windowErr_congr {buf buf' pat : List Byte} {i j : Nat}
    (h : (buf.drop i).take pat.length = (buf'.drop j).take pat.length) :
    windowErr buf pat i = windowErr buf' pat j := by
  rw [windowErr_eq_take, windowErr_eq_take, h]

/-- Bytes that arrive later do not change a window that is there whole. -/
theorem windowErr_append {buf pat : List Byte} {i : Nat} (h : i + pat.length ≤ buf.length)
    (x : List Byte) : windowErr (buf ++ x) pat i = windowErr buf pat i := by
  refine windowErr_congr ?_
  rw [List.drop_append_of_le_length (by omega), List.take_append_of_le_length]
  rw [List.length_drop]
  omega

theorem windowErr_drop (buf pat : List Byte) (k i : Nat) :
    windowErr (buf.drop k) pat i = windowErr buf pat (k + i) :=
  windowErr_congr (by rw [List.drop_drop])

/-- A window that is the pattern has no bit error. -/
theorem windowErr_eq_zero_of_exact {buf pat : List Byte} {i : Nat}
    (h : (buf.drop i).take pat.length = pat) : windowErr buf pat i = 0 := by
  rw [windowErr_eq_take, h, List.zipWith_self, List.sum_eq_zero]
  exact List.forall_mem_map.2 fun b _ => cnt_self b

section
variable {buf pat x : List Byte} {e i k : Nat}

/-- A window within the budget is found, or one before it is (R152). -/
theorem exists_find_le (h : i + pat.length ≤ buf.length) (hbudget : windowErr buf pat i ≤ e) :
    ∃ k, k ≤ i ∧ find buf pat e = some k := by
  cases hfind : find buf pat e with
  | none =>
    obtain hshort | hnone := find_eq_none_iff.1 hfind
    · omega
    · exact absurd hbudget (Nat.not_le.2 (hnone i h))
  | some k =>
    obtain ⟨-, -, hfirst⟩ := find_eq_some_iff.1 hfind
    exact ⟨k, Nat.le_of_not_lt fun hlt => Nat.not_le.2 (hfirst i hlt) hbudget, rfl⟩

/-- A match at the very front is the lowest there can be. -/
theorem find_eq_zero (h : pat.length ≤ buf.length) (hbudget : windowErr buf pat 0 ≤ e) :
    find buf pat e = some 0 :=
  find_eq_some_iff.2 ⟨(Nat.zero_add _).trans_le h, hbudget, nofun⟩

/-- Later bytes never move a candidate (R156 (d)). -/
theorem find_append_of_some (h : find buf pat e = some i) (x : List Byte) :
    find (buf ++ x) pat e = some i := by
  obtain ⟨hinside, hbudget, hfirst⟩ := find_eq_some_iff.1 h
  refine find_eq_some_iff.2 ⟨by rw [List.length_append]; omega, ?_, fun k hk => ?_⟩
  · rwa [windowErr_append hinside]
  · rw [windowErr_append (by omega)]
    exact hfirst k hk

/-- A new match uses a new byte (R156 (e)). -/
theorem length_lt_of_find_append (hnone : find buf pat e = none)
    (h : find (buf ++ x) pat e = some k) : buf.length < k + pat.length := by
  obtain ⟨-, hbudget, -⟩ := find_eq_some_iff.1 h
  obtain hshort | hover := find_eq_none_iff.1 hnone
  · omega
  · refine Nat.lt_of_not_le fun hinside => ?_
    rw [windowErr_append hinside] at hbudget
    exact Nat.not_le.2 (hover k hinside) hbudget

/-- The search shifts with its buffer (R156 (f)). -/
theorem find_drop (h : find buf pat e = some i) (hk : k ≤ i) :
    find (buf.drop k) pat e = some (i - k) := by
  obtain ⟨hinside, hbudget, hfirst⟩ := find_eq_some_iff.1 h
  refine find_eq_some_iff.2 ⟨by rw [List.length_drop]; omega, ?_, fun j hj => ?_⟩
  · rwa [windowErr_drop, Nat.add_sub_cancel' hk]
  · rw [windowErr_drop]
    exact hfirst _ (by omega)

end

end Sys2Proof.Machine
end

section
/-! Flipped bits (45_channel_fault_model.md R262): the mask of a byte counts the positions drawn in it, so a window
that held the pattern has as many bit errors as positions were drawn in it. -/

namespace Sys2Proof.Machine

/-- The byte of a bit list, bit by bit: the list is most significant first (R265). -/
theorem getLsbD_byteOfBits (bits : List Bool) {j : Nat} (hj : j < 8) :
    (byteOfBits bits).getLsbD j = bits.getD (7 - j) false := by
  have h0 := (bits.getD 0 false).toNat_le
  have h1 := (bits.getD 1 false).toNat_le
  have h2 := (bits.getD 2 false).toNat_le
  have h3 := (bits.getD 3 false).toNat_le
  have h4 := (bits.getD 4 false).toNat_le
  have h5 := (bits.getD 5 false).toNat_le
  have h6 := (bits.getD 6 false).toNat_le
  have h7 := (bits.getD 7 false).toNat_le
  have hbit (b : Bool) : b = decide (b.toNat = 1) := by cases b <;> rfl
  rw [BitVec.getLsbD, byteOfBits, BitVec.toNat_ofNat, Nat.testBit_eq_decide_div_mod_eq,
    hbit (bits.getD (7 - j) false), decide_eq_decide]
  simp only [List.range, List.range.loop, List.map_cons, List.map_nil, List.sum_cons, List.sum_nil]
  interval_cases j <;> simp only [Nat.reducePow, Nat.reduceSub] <;> omega

theorem getLsbD_flipMask (flips : List Nat) (i : Nat) {j : Nat} (hj : j < 8) :
    (flipMask flips i).getLsbD j = decide (8 * i + (7 - j) ∈ flips) := by
  rw [flipMask, getLsbD_byteOfBits _ hj, List.getD_eq_getElem _ _ (by simp; omega), List.getElem_map,
    List.getElem_range]

/-- The mask of a byte has as many bits as positions were drawn in the byte. -/
theorem popcount8_flipMask (flips : List Nat) (i : Nat) :
    popcount8 (flipMask flips i) = (List.range 8).countP fun k => decide (8 * i + k ∈ flips) := by
  have hreverse : (List.range 8).reverse = (List.range 8).map (7 - ·) := rfl
  rw [popcount8_eq_countP, ← List.countP_reverse (p := fun k => decide (8 * i + k ∈ flips)), hreverse,
    List.countP_map]
  exact List.countP_congr fun j hj => by
    rw [getLsbD_flipMask flips i (List.mem_range.1 hj)]
    rfl

/-- A byte in which no position was drawn is not changed. -/
theorem flipMask_eq_zero {flips : List Nat} {i : Nat} (h : ∀ q ∈ flips, q < 8 * i ∨ 8 * i + 8 ≤ q) :
    flipMask flips i = 0#8 := by
  refine BitVec.eq_of_getLsbD_eq fun j hj => ?_
  rw [getLsbD_flipMask flips i hj]
  refine (decide_eq_false fun hmem => ?_).trans BitVec.getLsbD_zero.symm
  have := h _ hmem
  omega

/-- The bit errors of a flipped byte are the bits of its mask. -/
theorem cnt_xor_left (b mask : Byte) : cnt (b ^^^ mask) b = popcount8 mask := by
  rw [cnt, BitVec.xor_comm b, BitVec.xor_assoc, BitVec.xor_self, BitVec.xor_zero]

@[simp] theorem flipStage_length (flips : List Nat) (x : List Byte) :
    (flipStage flips x).length = x.length := List.length_mapIdx

theorem flipStage_getElem {flips : List Nat} {x : List Byte} {i : Nat} (h : i < (flipStage flips x).length) :
    (flipStage flips x)[i] = x[i]'(flipStage_length flips x ▸ h) ^^^ flipMask flips i :=
  List.getElem_mapIdx

/-- Bytes past the drawn positions are not changed. -/
theorem flipStage_append_of_lt {flips : List Nat} {x y : List Byte} (h : ∀ q ∈ flips, q < 8 * x.length) :
    flipStage flips (x ++ y) = flipStage flips x ++ y := by
  rw [flipStage, List.mapIdx_append]
  refine congrArg (flipStage flips x ++ ·) (List.ext_getElem List.length_mapIdx fun i _ hi => ?_)
  rw [List.getElem_mapIdx, flipMask_eq_zero, BitVec.xor_zero]
  intro q hq
  have := h q hq
  omega

/-- Bytes ahead of the drawn positions are not changed. -/
theorem flipStage_append_of_ge {flips : List Nat} {x : List Byte} {b : Byte}
    (h : ∀ q ∈ flips, 8 * x.length ≤ q) :
    flipStage flips (x ++ [b]) = x ++ [b ^^^ flipMask flips x.length] := by
  rw [flipStage, List.mapIdx_append]
  congr 1
  · refine List.ext_getElem List.length_mapIdx fun i _ hi => ?_
    rw [List.getElem_mapIdx, flipMask_eq_zero, BitVec.xor_zero]
    intro q hq
    have := h q hq
    omega
  · simp

/-- No draw is the identity (R262). -/
theorem flipStage_nil (x : List Byte) : flipStage [] x = x := by
  refine List.ext_getElem (flipStage_length [] x) fun i hi _ => ?_
  rw [flipStage_getElem hi, flipMask_eq_zero (List.forall_mem_nil _), BitVec.xor_zero]

/-- Positions counted byte by byte are counted. -/
theorem sum_countP_bytes (p : Nat → Bool) (n : Nat) :
    ((List.range n).map fun j => (List.range 8).countP fun k => p (8 * j + k)).sum =
      (List.range (8 * n)).countP p := by
  induction n with
  | zero => rfl
  | succ n ih =>
    rw [List.range_succ (n := n), List.map_append, List.sum_append, ih, Nat.mul_succ, List.range_add,
      List.countP_append, List.countP_map, List.map_singleton, List.sum_singleton]
    rfl

/-- Flipping distinct bits inside a window that holds the pattern makes its total their number
(41_pattern_locator.md R157). -/
theorem windowErr_flipStage {buf pat : List Byte} {flips : List Nat} {i : Nat}
    (hlength : i + pat.length ≤ buf.length) (hexact : (buf.drop i).take pat.length = pat)
    (hnodup : flips.Nodup) (hinside : ∀ q ∈ flips, 8 * i ≤ q ∧ q < 8 * (i + pat.length)) :
    windowErr (flipStage flips buf) pat i = flips.length := by
  have hbyte : ∀ j ∈ List.range pat.length,
      cnt ((flipStage flips buf).getD (i + j) 0) (pat.getD j 0) =
        (List.range 8).countP fun k => decide (8 * i + (8 * j + k) ∈ flips) := by
    intro j hj
    have hj := List.mem_range.1 hj
    have hpat : pat[j] = buf[i + j] := by
      have := List.getElem_of_eq hexact (i := j) (by rw [hexact]; exact hj)
      rw [← this, List.getElem_take, List.getElem_drop]
    have hflip : i + j < (flipStage flips buf).length := by
      rw [flipStage_length]
      omega
    rw [List.getD_eq_getElem _ _ hflip, List.getD_eq_getElem _ _ hj, flipStage_getElem hflip, hpat,
      cnt_xor_left, popcount8_flipMask, Nat.mul_add]
    simp only [Nat.add_assoc]
  rw [windowErr_eq_sum_range (by rwa [flipStage_length]), List.map_congr_left hbyte,
    sum_countP_bytes fun q => decide (8 * i + q ∈ flips)]
  exact countP_mem_eq_length hnodup fun q hq => by have := hinside q hq; omega

end Sys2Proof.Machine
end

section
/-! The statements on the distance, the search and flipped bits (40_bit_error_counter.md R142,
41_pattern_locator.md section 2, 70_reset_and_hazards.md section 2). -/

namespace Sys2Proof.Machine

/-- Settles O10: each law is one about the positions at which two bytes differ. -/
theorem countDistanceLaws : Obligations.CountDistanceLaws :=
  ⟨cnt_le_eight, cnt_eq_zero_iff, cnt_comm, cnt_triangle,
    fun a _ hnodup hinside => cnt_foldl_flip hnodup hinside a, cnt_eq_eight_iff⟩

/-- Settles O12: windows keep their totals in a longer buffer and in a suffix. -/
theorem findIsStableUnderAppending : Obligations.FindIsStableUnderAppending :=
  ⟨fun _ _ x _ _ h => find_append_of_some h x, fun _ _ _ _ _ => length_lt_of_find_append,
    fun _ _ _ _ _ => find_drop⟩

/-- Settles O13: a window within the budget bounds what is found. -/
theorem findExactSaturatedMonotone : Obligations.FindExactSaturatedMonotone := by
  refine ⟨fun buf pat e i h hexact => ?exact, fun _ _ _ => find_eq_zero_of_saturated,
    fun buf pat e e' i hle h => ?larger⟩
  case exact =>
    exact exists_find_le h ((windowErr_eq_zero_of_exact hexact).trans_le (Nat.zero_le e))
  case larger =>
    obtain ⟨hinside, hbudget, -⟩ := find_eq_some_iff.1 h
    exact exists_find_le hinside (hbudget.trans hle)

/-- Settles O16: the window's total is the number of flips, which is within the budget or not. -/
theorem flippedBitsAreCounted : Obligations.FlippedBitsAreCounted := by
  intro buf pat flips e i hlength hexact hnodup hinside
  have htotal := windowErr_flipStage hlength hexact hnodup hinside
  refine ⟨htotal, fun hle => ?_, fun hgt hfind => ?_⟩
  · exact exists_find_le (by rwa [flipStage_length]) (htotal.trans_le hle)
  · obtain ⟨-, hbudget, -⟩ := find_eq_some_iff.1 hfind
    omega

/-- Settles O37: a future match uses a new byte, so it begins among the bytes kept, and the search shifts with
what is dropped ahead of them. -/
theorem dropAfterNoSyncLosesNoCandidate : Obligations.DropAfterNoSyncLosesNoCandidate := by
  intro buf pat x e k hpos hlong hnone hfind
  have hnew := length_lt_of_find_append hnone hfind
  have hkept : buf.length - (pat.length - 1) ≤ k := by omega
  exact ⟨hkept, find_drop hfind hkept⟩

end Sys2Proof.Machine
end

section
/-! The frame that `build` lays out and what `parse` and `extract_payload` read back (42_frame_codec.md sections 1
and 4). -/

namespace Sys2Proof.Machine

section
variable {sync p f : List Byte}

/-- The layout of a built frame, field by field: sync, two length bytes, payload, checksum (30_encoding.md
R100, R165). -/
theorem exists_layout_of_build (h : build sync p = .ok f) :
    ∃ a b, f = sync ++ a :: b :: (p ++ [csum p]) ∧ p.length = be16 a b := by
  obtain ⟨-, hb⟩ | ⟨hle, hb⟩ := build_cases sync p
  · cases hb.symm.trans h
  · obtain rfl := Except.ok.inj (hb.symm.trans h)
    refine ⟨_, _, ?_, (be16_lengthField p.length hle).symm⟩
    simp only [lengthField, List.append_assoc, List.cons_append, List.nil_append]

/-- A frame is as long as its length field declares (R101). -/
theorem length_eq_totalSize_of_build (h : build sync p = .ok f) :
    f.length = totalSize sync.length p.length := by
  rw [length_of_build h, totalSize]
  omega

theorem take_syncLen_of_build (h : build sync p = .ok f) : f.take sync.length = sync := by
  obtain ⟨a, b, rfl, -⟩ := exists_layout_of_build h
  exact List.take_left

end

/-- `parse` answers when the declared frame fits, and then with the fields by position (R171). -/
theorem eq_of_parse_eq_ok {v : List Byte} {n : Nat} {p : ParsedFrame} (h : parse v n = .ok p) :
    totalSize n p.length ≤ v.length ∧ p.length = headerLength v n ∧
      p.span = (v.drop (n + 2)).take p.length ∧ p.checksum = v.getD (totalSize n p.length - 1) 0 := by
  obtain ⟨-, hp⟩ | ⟨-, -, hp⟩ | ⟨-, htotal, hp⟩ := parse_cases v n
  · cases hp.symm.trans h
  · cases hp.symm.trans h
  · obtain rfl := Except.ok.inj (hp.symm.trans h)
    exact ⟨htotal, rfl, rfl, rfl⟩

/-- `extract_payload` on a frame laid out field by field; neither the sync region nor the length field is read
(R177). -/
theorem extractPayload_append (region span : List Byte) (a b chk : Byte) :
    extractPayload region.length (some (region ++ a :: b :: (span ++ [chk]))) = .ok span := by
  have hlayout : region ++ a :: b :: (span ++ [chk]) = (region ++ [a, b]) ++ span ++ [chk] := by
    simp only [List.append_assoc, List.cons_append, List.nil_append]
  have hheader : region.length + 2 = (region ++ [a, b]).length := by
    rw [List.length_append]
    rfl
  rw [hlayout, extractPayload, List.length_append, List.length_singleton, Nat.add_sub_cancel,
    List.take_left, hheader, List.drop_left]

section
variable {sync p f : List Byte} (h : build sync p = .ok f)
include h

/-- `parse` undoes `build`, whatever follows the frame (42_frame_codec.md section 4). -/
theorem parse_of_build (x : List Byte) :
    parse (f ++ x) sync.length = .ok ⟨p.length, p, csum p⟩ := by
  obtain ⟨a, b, rfl, hlen⟩ := exists_layout_of_build h
  have hparse := parse_append sync p x a b (csum p) hlen
  rw [← hlen] at hparse
  simpa only [List.append_assoc, List.cons_append, List.nil_append] using hparse

/-- `extract_payload` undoes `build` (section 4). -/
theorem extractPayload_of_build : extractPayload sync.length (some f) = .ok p := by
  obtain ⟨a, b, rfl, -⟩ := exists_layout_of_build h
  exact extractPayload_append sync p a b (csum p)

end

end Sys2Proof.Machine
end

section
/-! The statements on the codec as functions (42_frame_codec.md sections 1 and 4). -/

namespace Sys2Proof.Machine

/-- Settles O17: the fields are those that `parse` reads back, and the payload that `extract_payload` reads back
is the frame's only one. -/
theorem buildFrameLaws : Obligations.BuildFrameLaws := by
  refine ⟨fun sync p => build_of_length_gt, fun sync p hle => ?frame, fun sync p q f hp hq => ?injective⟩
  case frame =>
    obtain ⟨f, hf⟩ : ∃ f, build sync p = .ok f := ⟨_, build_of_length_le hle⟩
    have hparse := parse_of_build hf []
    rw [List.append_nil] at hparse
    obtain ⟨-, hlen, hspan, hchk⟩ := eq_of_parse_eq_ok hparse
    rw [← length_eq_totalSize_of_build hf] at hchk
    exact ⟨f, hf, length_of_build hf, take_syncLen_of_build hf, hlen.symm, hspan.symm, hchk.symm⟩
  case injective =>
    exact Except.ok.inj ((extractPayload_of_build hp).symm.trans (extractPayload_of_build hq))

/-- Settles O23: `parse` and `extract_payload` on the frame's layout. -/
theorem codecRoundTrip : Obligations.CodecRoundTrip := by
  intro sync p f h
  have hparse := parse_of_build h []
  rw [List.append_nil] at hparse
  exact ⟨hparse, extractPayload_of_build h, rfl⟩

end Sys2Proof.Machine
end

section
/-! Recover on a buffer that holds a whole frame where the search stops (43_frame_synchronizer.md section 5): the
verdict is the distance of the frame's two checksums. -/

namespace Sys2Proof.Machine

section
variable {c : Config} {buf g f x : List Byte} {m : Nat} {p : ParsedFrame} (hbuf : buf = g ++ f ++ x)
  (hfind : find buf c.sync c.maxBitErrors = some g.length) (hparse : parse (f ++ x) c.syncLen = .ok p)
  (hm : m ≤ f.length)
include hbuf hfind hparse hm

/-- Steps (4) to (8) of R195 read what `parse` reads. -/
theorem recoverExit_of_parse : recoverExit c buf m =
    if cnt (csum p.span) p.checksum ≤ c.maxBitErrors then
      .recovered g.length p.length p.checksum (csum p.span) (cnt (csum p.span) p.checksum)
    else .invalid g.length p.length p.checksum (csum p.span) (cnt (csum p.span) p.checksum) := by
  obtain ⟨htotal, hlen, hspan, hchk⟩ := eq_of_parse_eq_ok hparse
  have hslice : f ++ x = buf.drop g.length := by rw [hbuf, List.append_assoc, List.drop_left]
  have hmin : m ≤ buf.length := by
    rw [hbuf, List.length_append, List.length_append]
    omega
  have hrecheck : m ≤ (f ++ x).length := by
    rw [List.length_append]
    omega
  exact recoverExit_of_total_le_slice hmin hfind hslice hrecheck hlen htotal (congrArg csum hspan) hchk

/-- The candidate is given up and one byte past it is slipped (R202). -/
theorem recover_of_parse_far (hfar : c.maxBitErrors < cnt (csum p.span) p.checksum) :
    recover c buf m = (.invalid, none, buf.drop (g.length + 1)) := by
  have he := recoverExit_of_parse hbuf hfind hparse hm
  rw [if_neg (Nat.not_le.2 hfar)] at he
  exact recover_of_exit_without_frame he rfl

variable (hwhole : f.length = totalSize c.syncLen p.length)
include hwhole

/-- The frame comes out whole and what follows it is left (R204). -/
theorem recover_of_parse_near (hnear : cnt (csum p.span) p.checksum ≤ c.maxBitErrors) :
    recover c buf m = (.recovered, some f, x) := by
  have he := recoverExit_of_parse hbuf hfind hparse hm
  rw [if_pos hnear] at he
  rw [recover_of_exit_with_frame he rfl, hbuf]
  simp only [recoverRow, ← hwhole]
  rw [List.append_assoc, List.drop_left, List.take_left, List.drop_length_add_append, List.drop_left]

end

section
variable {c : Config} {p f : List Byte} (h : build c.sync p = .ok f)
include h

/-- A built frame where the search stops is recovered whole, whatever is ahead of it and after it. -/
theorem recover_of_build {g x : List Byte} {m : Nat} (hm : m ≤ f.length)
    (hfind : find (g ++ f ++ x) c.sync c.maxBitErrors = some g.length) :
    recover c (g ++ f ++ x) m = (.recovered, some f, x) :=
  recover_of_parse_near rfl hfind (parse_of_build h x) hm (length_eq_totalSize_of_build h)
    ((cnt_self _).trans_le (Nat.zero_le _))

/-- A frame's first window is the sync pattern, so the search stops at a frame in front (R165). -/
theorem find_build_append (x : List Byte) : find (f ++ x) c.sync c.maxBitErrors = some 0 := by
  have hlength := length_of_build h
  have hexact : ((f ++ x).drop 0).take c.sync.length = c.sync := by
    rw [List.drop_zero, List.take_append_of_le_length (by omega), take_syncLen_of_build h]
  refine find_eq_zero (by rw [List.length_append]; omega) ?_
  rw [windowErr_eq_zero_of_exact hexact]
  exact Nat.zero_le _

/-- A built frame in front of a buffer is recovered whole. -/
theorem recover_build_append {m : Nat} (hm : m ≤ f.length) (x : List Byte) :
    recover c (f ++ x) m = (.recovered, some f, x) :=
  recover_of_build (g := []) h hm (find_build_append h x)

/-- A built frame alone is recovered with nothing left. -/
theorem recover_build {m : Nat} (hm : m ≤ f.length) : recover c f m = (.recovered, some f, []) := by
  simpa only [List.append_nil] using recover_build_append h hm []

/-- Flips in the sync region leave all that `parse` and `extract_payload` read (42_frame_codec.md R172,
R177). -/
theorem parse_extractPayload_flipped_sync {flips : List Nat} (hsync : ∀ q ∈ flips, q < 8 * c.syncLen) :
    parse (flipStage flips f) c.syncLen = .ok ⟨p.length, p, csum p⟩ ∧
      extractPayload c.syncLen (some (flipStage flips f)) = .ok p := by
  obtain ⟨a, b, rfl, hlen⟩ := exists_layout_of_build h
  have hregion : c.syncLen = (flipStage flips c.sync).length := (flipStage_length flips c.sync).symm
  rw [flipStage_append_of_lt hsync, hregion]
  refine ⟨?_, extractPayload_append _ p a b (csum p)⟩
  rw [parse_append _ p [] a b (csum p) hlen, hlen]

/-- Flips in the checksum byte change that byte alone. -/
theorem parse_flipped_checksum {flips : List Nat} (hchk : ∀ q ∈ flips, 8 * (f.length - 1) ≤ q) :
    parse (flipStage flips f) c.syncLen =
      .ok ⟨p.length, p, csum p ^^^ flipMask flips (f.length - 1)⟩ ∧
    find (flipStage flips f) c.sync c.maxBitErrors = some 0 := by
  obtain ⟨a, b, hf, hlen⟩ := exists_layout_of_build h
  have hsplit : f = (c.sync ++ a :: b :: p) ++ [csum p] := by
    rw [hf, List.append_assoc, List.cons_append, List.cons_append]
  have hlast : f.length - 1 = (c.sync ++ a :: b :: p).length := by
    rw [hsplit, List.length_append, List.length_singleton, Nat.add_sub_cancel]
  rw [hlast] at hchk ⊢
  rw [hsplit, flipStage_append_of_ge hchk]
  constructor
  · rw [List.append_assoc, List.cons_append, List.cons_append]
    exact (parse_append c.sync p [] a b _ hlen).trans (by rw [hlen])
  · rw [List.append_assoc]
    have hexact (y : List Byte) : ((c.sync ++ y).drop 0).take c.sync.length = c.sync := by
      rw [List.drop_zero, List.take_left]
    refine find_eq_zero (by rw [List.length_append]; omega) ?_
    rw [windowErr_eq_zero_of_exact (hexact _)]
    exact Nat.zero_le _

end

/-- A length field that is there whole is not changed by bytes that arrive later. -/
theorem headerLength_append_of_le {v : List Byte} {n : Nat} (h : n + 2 ≤ v.length) (x : List Byte) :
    headerLength (v ++ x) n = headerLength v n := by
  rw [headerLength, headerLength, List.getD_append _ _ _ _ (by omega), List.getD_append _ _ _ _ (by omega)]

end Sys2Proof.Machine
end

section
/-! The phase machine of RECOVER, phase by phase (43_frame_synchronizer.md R212). -/

namespace Sys2Proof.Machine

section
variable (c : Config) (buf : List Byte) (m : Nat)

/-- IDLE is kept until the next command. -/
@[simp] theorem runPhases_idle (n : Nat) (e : RecoverExit) :
    runPhases c buf m n (.idle e) = .idle e := by
  induction n with
  | zero => rfl
  | succ n ih => exact ih

/-- The phases from HEADER on, once the candidate's slice has passed RECHK: they read the buffer at the
candidate's place where the atomic algorithm reads the slice. -/
theorem runPhases_header {i : Nat} (hmin : m ≤ buf.length)
    (hfind : find buf c.sync c.maxBitErrors = some i) (hrecheck : m ≤ (buf.drop i).length) :
    runPhases c buf m 4 (.header i (buf.length - i)) = .idle (recoverExit c buf m) := by
  have hfield : be16 (buf.getD (i + c.syncLen) 0) (buf.getD (i + c.syncLen + 1) 0) =
      headerLength (buf.drop i) c.syncLen := (headerLength_view buf i c.syncLen).symm
  have htotal (len : Nat) : c.syncLen + 3 + len = totalSize c.syncLen len := by
    rw [totalSize]
    omega
  have hlength : (buf.drop i).length = buf.length - i := List.length_drop
  simp only [runPhases, phaseStep, hfield, htotal]
  obtain hshort | hheader := Nat.lt_or_ge (buf.length - i) (c.syncLen + 2)
  · rw [if_pos hshort, recoverExit_of_slice_lt_header hmin hfind rfl hrecheck (hlength.trans_lt hshort)]
  rw [if_neg (Nat.not_lt.2 hheader)]
  generalize hlen : headerLength (buf.drop i) c.syncLen = len
  dsimp only
  obtain hshort | hwhole := Nat.lt_or_ge (buf.length - i) (totalSize c.syncLen len)
  · rw [if_pos hshort, recoverExit_of_slice_lt_total hmin hfind rfl hrecheck hlen.symm
      (hheader.trans hlength.ge) (hlength.trans_lt hshort)]
  rw [if_neg (Nat.not_lt.2 hwhole), recoverExit_of_total_le_slice hmin hfind rfl hrecheck hlen.symm
    (hwhole.trans hlength.ge) rfl rfl]
  have hpayload : buf.drop (i + c.syncLen + 2) = (buf.drop i).drop (c.syncLen + 2) := by
    rw [List.drop_drop, Nat.add_assoc]
  have hchk : buf.getD (i + totalSize c.syncLen len - 1) 0 =
      (buf.drop i).getD (totalSize c.syncLen len - 1) 0 := by
    have := header_lt_totalSize c.syncLen len
    rw [← view, getD_view, Nat.add_sub_assoc (by omega)]
  dsimp only
  rw [hpayload, hchk]
  split <;> rfl

end

end Sys2Proof.Machine
end

section
/-! The statements of 43_frame_synchronizer.md sections 3 and 5. -/

namespace Sys2Proof.Machine

/-- Settles O27: the exits ahead of the slice end the phases early; the rest is read at the candidate. -/
theorem phaseMachineRefinesRecover : Obligations.PhaseMachineRefinesRecover := by
  intro c buf m
  obtain hshort | hmin := Nat.lt_or_ge buf.length m
  · rw [recoverExit_tooShort c buf m hshort, runPhases, phaseStep, if_pos hshort, runPhases_idle]
  rw [runPhases, phaseStep, if_neg (Nat.not_lt.2 hmin)]
  cases hfind : find buf c.sync c.maxBitErrors with
  | none => rw [recoverExit_noSync c buf m hmin hfind, runPhases, phaseStep, hfind, runPhases_idle]
  | some i =>
    have hlength : (buf.drop i).length = buf.length - i := List.length_drop
    rw [runPhases, phaseStep, hfind, runPhases, phaseStep, runPhases, phaseStep]
    obtain hshort | hrecheck := Nat.lt_or_ge (buf.length - i) m
    · rw [if_pos hshort, runPhases_idle,
        recoverExit_of_slice_lt_min hmin hfind rfl (hlength.trans_lt hshort)]
    · rw [if_neg (Nat.not_lt.2 hrecheck)]
      exact runPhases_header c buf m hmin hfind (hrecheck.trans hlength.ge)

/-- Settles O28: the search stops at the frame's own sync, and its two checksums are equal. -/
theorem builtFrameIsRecovered : Obligations.BuiltFrameIsRecovered := by
  intro c p f m h hm
  exact ⟨recover_build h (hm.trans (length_of_build h).ge), extractPayload_of_build h⟩

/-- Settles O29: the window at the true start has as many errors as flips; the fields past it are as built. -/
theorem syncToleranceBoundary : Obligations.SyncToleranceBoundary := by
  intro c p f flips m h hnodup hsync hm
  have hlength : c.syncLen ≤ f.length := by
    have := length_of_build h
    rw [Config.syncLen]
    omega
  have herrors : windowErr (flipStage flips f) c.sync 0 = flips.length :=
    windowErr_flipStage ((Nat.zero_add _).trans_le hlength) (take_syncLen_of_build h) hnodup
      fun q hq => ⟨Nat.zero_le q, by rw [Nat.zero_add]; exact hsync q hq⟩
  refine ⟨fun hle => ?near, fun hgt => ⟨fun i hfind => ?moved, fun hother => ?noSync⟩⟩
  case near =>
    obtain ⟨hparse, hpayload⟩ := parse_extractPayload_flipped_sync h hsync
    have hwhole : (flipStage flips f).length = totalSize c.syncLen p.length :=
      (flipStage_length flips f).trans (length_eq_totalSize_of_build h)
    have hfind : find (flipStage flips f) c.sync c.maxBitErrors = some 0 :=
      find_eq_zero (by rwa [flipStage_length]) (herrors.trans_le hle)
    rw [← List.append_nil (flipStage flips f)] at hparse
    rw [← flipStage_length flips f] at hm
    exact ⟨recover_of_parse_near (g := []) (List.append_nil _).symm hfind hparse hm hwhole
      ((cnt_self (csum p)).trans_le (Nat.zero_le _)), hpayload⟩
  case moved =>
    obtain ⟨-, hbudget, -⟩ := find_eq_some_iff.1 hfind
    refine Nat.one_le_iff_ne_zero.2 ?_
    rintro rfl
    omega
  case noSync =>
    have hnone : find (flipStage flips f) c.sync c.maxBitErrors = none := by
      refine find_eq_none_iff.2 (.inr fun k hk => ?_)
      rw [flipStage_length] at hk
      obtain rfl | hpos := Nat.eq_zero_or_pos k
      · exact hgt.trans_eq herrors.symm
      · exact hother k hpos hk
    exact recover_of_exit_without_frame
      (recoverExit_noSync c _ m (by rwa [flipStage_length]) hnone) rfl

/-- Settles O30: the checksum's distance is the number of flips, and nothing else has changed. -/
theorem checksumToleranceBoundary : Obligations.ChecksumToleranceBoundary := by
  intro c p f flips m h hnodup hchk hm
  have hlength := length_of_build h
  obtain ⟨hparse, hfind⟩ := parse_flipped_checksum h fun q hq => (hchk q hq).1
  have hdist : cnt (csum p) (csum p ^^^ flipMask flips (f.length - 1)) = flips.length := by
    rw [cnt_comm, cnt_xor_left, popcount8_flipMask]
    exact countP_mem_eq_length hnodup fun q hq => by have := hchk q hq; omega
  have hwhole : (flipStage flips f).length = totalSize c.syncLen p.length :=
    (flipStage_length flips f).trans (length_eq_totalSize_of_build h)
  rw [← flipStage_length flips f] at hm
  rw [← List.append_nil (flipStage flips f)] at hparse
  refine ⟨fun hle => ?near, fun hgt => ?far⟩
  case near =>
    exact recover_of_parse_near (g := []) (List.append_nil _).symm hfind hparse hm hwhole
      (hdist.trans_le hle)
  case far =>
    exact recover_of_parse_far (g := []) (List.append_nil _).symm hfind hparse hm
      (hgt.trans_eq hdist.symm)

/-- Settles O31: the frame stands where the search stops. -/
theorem garbagePrefixIsSkipped : Obligations.GarbagePrefixIsSkipped := by
  intro c g p f x m h hm hfind
  exact recover_of_build h (hm.trans (length_of_build h).ge) hfind

/-- Settles O32: each frame in its turn stands in front. -/
theorem sequentialFramesInOrder : Obligations.SequentialFramesInOrder := by
  intro c p q f g m hf hg hm
  have hfLength : f.length = c.syncLen + 3 + p.length := length_of_build hf
  have hgLength : g.length = c.syncLen + 3 + q.length := length_of_build hg
  exact ⟨recover_build_append hf (by omega) g, recover_build hg (by omega)⟩

/-- Settles O33: the candidate and its length field do not move under bytes that arrive later, so only the length
of the slice decides. -/
theorem incompleteStaysUntilBytesArrive : Obligations.IncompleteStaysUntilBytesArrive := by
  intro c buf x m i len he
  obtain ⟨hfind, hrecheck, hheader, hlen⟩ : (RecoverExit.incompleteFrame i len).Evidence c buf m :=
    he ▸ recoverExit_evidence c buf m
  have hinside := add_syncLen_le_of_find hfind
  have hfind' := find_append_of_some hfind x
  have hslice : buf.drop i ++ x = (buf ++ x).drop i :=
    (List.drop_append_of_le_length (by omega)).symm
  have hlength : (buf.drop i ++ x).length = buf.length + x.length - i := by
    rw [List.length_append, List.length_drop]
    omega
  have hmin : m ≤ (buf ++ x).length := by
    rw [List.length_append]
    omega
  have hlen' : len = headerLength (buf.drop i ++ x) c.syncLen := by
    rw [headerLength_append_of_le (by rwa [List.length_drop]), hlen]
  have hrecheck' : m ≤ (buf.drop i ++ x).length := by omega
  refine ⟨fun hshort => ?_, fun hwhole => ?_⟩
  · exact recoverExit_of_slice_lt_total hmin hfind' hslice hrecheck' hlen' (by omega) (by omega)
  · have hverdict := recoverExit_of_total_le_slice hmin hfind' hslice hrecheck' hlen' (by omega) rfl rfl
    split at hverdict
    · exact ⟨_, _, _, .inl hverdict⟩
    · exact ⟨_, _, _, .inr hverdict⟩

end Sys2Proof.Machine
end

section
/-! The host's loop PULL round by round (43_frame_synchronizer.md section 4, R220): what one RECOVER leaves, and
what the loop does next by the exit it took. -/

namespace Sys2Proof.Machine

/-- What RECOVER m leaves when the host issues it: the row of the exit taken on RX. -/
def State.afterRecover (s : State) (m : Nat) : State :=
  (s.nextEpoch.writeRow (recoverRow s.cfg.syncLen (recoverExit s.cfg s.nextEpoch.rx m))).done

/-- What RXACCEPT leaves when the host issues it. -/
def State.afterRxaccept (s : State) : State := s.nextEpoch.discard s.remOff.toNat

theorem issue_recover {m : Nat} (hm : m < 16777216) (s : State) :
    issue (encode (.recover m)) s.nextEpoch = .next (s.afterRecover m) :=
  (issue_ok _ _ _ (decode_encode (i := .recover m) (decide_eq_true hm))).trans
    (exec_recover m s.nextEpoch)

theorem issue_rxaccept (s : State) : issue (encode .rxaccept) s.nextEpoch = .next s.afterRxaccept :=
  (issue_ok _ _ _ (decode_encode (i := .rxaccept) rfl)).trans (exec_rxaccept s.nextEpoch)

section
variable {s : State} {m : Nat} (hm : m < 16777216) (n : Nat)
include hm

/-- On Recovered the loop reads the frame, accepts the remainder and ends. -/
theorem pull_of_recovered (h : (s.afterRecover m).outcome = .recovered) :
    pull m (n + 1) s =
      some ⟨some (heldFrame (s.afterRecover m)), (s.afterRecover m).afterRxaccept, 1⟩ := by
  rw [pull, issue_recover hm]
  dsimp only
  rw [h]
  dsimp only
  rw [issue_rxaccept]

/-- On Invalid the loop accepts the one-byte slip and goes on. -/
theorem pull_of_invalid (h : (s.afterRecover m).outcome = .invalid) :
    pull m (n + 1) s = (pull m n (s.afterRecover m).afterRxaccept).map
      fun r => { r with recovers := r.recovers + 1 } := by
  rw [pull, issue_recover hm]
  dsimp only
  rw [h]
  dsimp only
  rw [issue_rxaccept]

/-- On every other outcome the loop ends without a frame. -/
theorem pull_of_other (hrecovered : (s.afterRecover m).outcome ≠ .recovered)
    (hinvalid : (s.afterRecover m).outcome ≠ .invalid) :
    pull m (n + 1) s = some ⟨none, s.afterRecover m, 1⟩ := by
  rw [pull, issue_recover hm]
  dsimp only
  split
  · exact absurd ‹_› hrecovered
  · exact absurd ‹_› hinvalid
  · rfl

end

/-- The rows of Invalid and Recovered are those of the two exits with a checked frame (R205). -/
theorem exists_of_recoverRow_invalid {n : Nat} {e : RecoverExit} (h : (recoverRow n e).outcome = .invalid) :
    ∃ i len r k d, e = .invalid i len r k d := by
  cases e with
  | invalid i len r k d => exact ⟨i, len, r, k, d, rfl⟩
  | _ => cases h

theorem exists_of_recoverRow_recovered {n : Nat} {e : RecoverExit}
    (h : (recoverRow n e).outcome = .recovered) : ∃ i len r k d, e = .recovered i len r k d := by
  cases e with
  | recovered i len r k d => exact ⟨i, len, r, k, d, rfl⟩
  | _ => cases h

/-- The frame the host reads is the slice of RX that FRM_OFF and FRM_LEN name (R220). -/
theorem heldFrame_eq_slice {s : State} (h : s.frmOff.toNat + s.frmLen.toNat ≤ s.rxLen.toNat) :
    heldFrame s = (s.rx.drop s.frmOff.toNat).take s.frmLen.toNat := by
  have hrx := s.rx_length
  refine List.ext_getElem ?_ fun k hk _ => ?_
  · simp only [heldFrame, List.length_map, List.length_range, List.length_take, List.length_drop]
    omega
  · simp only [heldFrame, List.length_map, List.length_range] at hk
    simp only [heldFrame, List.getElem_map, List.getElem_range, List.getElem_take, List.getElem_drop]
    rw [memRead_rxbuf (by omega), List.getD_eq_getElem _ _ (by omega)]

section
variable {s : State} {m : Nat}

/-- An Invalid round leaves fewer bytes in RX: the slip is at least one byte and RX has it (R203, R240). -/
theorem rxLen_lt_of_invalid (h : (s.afterRecover m).outcome = .invalid) :
    (s.afterRecover m).afterRxaccept.rxLen.toNat < s.rxLen.toNat := by
  obtain ⟨i, len, r, k, d, he⟩ := exists_of_recoverRow_invalid h
  have hevidence : (RecoverExit.invalid i len r k d).Evidence s.cfg s.nextEpoch.rx m :=
    he ▸ recoverExit_evidence s.cfg s.nextEpoch.rx m
  have hwhole := hevidence.whole
  have hsize := header_lt_totalSize s.cfg.syncLen len
  have hrx := s.rxLen.isLt
  rw [State.rx_length, State.nextEpoch_rxLen] at hwhole
  have hrem : (s.afterRecover m).remOff.toNat = i + 1 := by
    rw [State.afterRecover, he]
    exact word_toNat_of_lt (n := i + 1) (by omega)
  rw [State.afterRxaccept, State.discard_rxLen_toNat, hrem]
  show s.rxLen.toNat - (i + 1) < s.rxLen.toNat
  omega

/-- What the host reads after Recovered is the frame that the exit checked (R204, R220). -/
theorem heldFrame_of_recovered (h : (s.afterRecover m).outcome = .recovered) :
    ∃ i len r k d, CheckedFrame s.cfg s.nextEpoch.rx i len r k d ∧ d ≤ s.cfg.maxBitErrors ∧
      heldFrame (s.afterRecover m) = (s.nextEpoch.rx.drop i).take (totalSize s.cfg.syncLen len) := by
  obtain ⟨i, len, r, k, d, he⟩ := exists_of_recoverRow_recovered h
  obtain ⟨hframe, hnear⟩ : (RecoverExit.recovered i len r k d).Evidence s.cfg s.nextEpoch.rx m :=
    he ▸ recoverExit_evidence s.cfg s.nextEpoch.rx m
  have hwhole := hframe.whole
  have hrx := s.rxLen.isLt
  rw [State.rx_length, State.nextEpoch_rxLen] at hwhole
  have hoff : (s.afterRecover m).frmOff.toNat = i := by
    rw [State.afterRecover, he]
    exact word_toNat_of_lt (n := i) (by omega)
  have hlen : (s.afterRecover m).frmLen.toNat = totalSize s.cfg.syncLen len := by
    rw [State.afterRecover, he]
    exact word_toNat_of_lt (n := totalSize s.cfg.syncLen len) (by omega)
  refine ⟨i, len, r, k, d, hframe, hnear, ?_⟩
  rw [heldFrame_eq_slice (by rw [hoff, hlen]; exact hwhole), hoff, hlen, State.afterRecover,
    State.rx_writeRow_done]

end

/-- The slice of a checked frame has the length it declares, a sync within tolerance and the distance that was
checked (R195). -/
theorem CheckedFrame.slice {c : Config} {buf f : List Byte} {i len d : Nat} {r k : Byte}
    (h : CheckedFrame c buf i len r k d) (hf : f = (buf.drop i).take (totalSize c.syncLen len)) :
    f.length = totalSize c.syncLen len ∧ headerLength f c.syncLen = len ∧
      windowErr f c.sync 0 ≤ c.maxBitErrors ∧
      cnt (csum ((f.take (f.length - 1)).drop (c.syncLen + 2))) (f.getD (f.length - 1) 0) = d := by
  have hwhole := h.whole
  have htotal := header_lt_totalSize c.syncLen len
  have hlength : f.length = totalSize c.syncLen len := by
    rw [hf, List.length_take, List.length_drop]
    omega
  have hslice : buf.drop i = f ++ buf.drop (i + totalSize c.syncLen len) := by
    rw [hf, ← List.drop_drop, List.take_append_drop]
  have hsync : 0 + c.syncLen ≤ f.length := by omega
  obtain ⟨-, hbudget, -⟩ := find_eq_some_iff.1 h.found
  refine ⟨hlength, ?field, ?sync, ?dist⟩
  case field => rw [h.length_eq, hslice, headerLength_append_of_le (by omega)]
  case sync =>
    have hwindow := windowErr_drop buf c.sync i 0
    rw [hslice, windowErr_append hsync] at hwindow
    exact hwindow.trans_le hbudget
  case dist =>
    have hk := h.computed_eq
    have hr := h.received_eq
    rw [hslice, ← drop_take_payload, List.take_append_of_le_length (by omega)] at hk
    rw [hslice, List.getD_append _ _ _ _ (by omega)] at hr
    rw [hlength, ← hk, ← hr, h.dist_eq]

end Sys2Proof.Machine
end

section
/-! The statements on PULL (43_frame_synchronizer.md sections 1 and 4). -/

namespace Sys2Proof.Machine

/-- Every round but the last takes a byte from RX, so a bound on RX bounds the rounds. -/
theorem exists_pull_of_rxLen_le {m : Nat} (hm : m < 16777216) (n : Nat) (s : State)
    (h : s.rxLen.toNat ≤ n) : ∃ r, pull m (n + 1) s = some r ∧ r.recovers ≤ n + 1 := by
  induction n generalizing s with
  | zero =>
    have hinvalid : (s.afterRecover m).outcome ≠ .invalid := fun hi => by
      have := rxLen_lt_of_invalid hi
      omega
    by_cases hrecovered : (s.afterRecover m).outcome = .recovered
    · exact ⟨_, pull_of_recovered hm 0 hrecovered, Nat.le_refl 1⟩
    · exact ⟨_, pull_of_other hm 0 hrecovered hinvalid, Nat.le_refl 1⟩
  | succ n ih =>
    by_cases hinvalid : (s.afterRecover m).outcome = .invalid
    · have hfewer := rxLen_lt_of_invalid hinvalid
      obtain ⟨r, hr, hrounds⟩ := ih (s.afterRecover m).afterRxaccept (by omega)
      refine ⟨{ r with recovers := r.recovers + 1 }, ?_, Nat.succ_le_succ hrounds⟩
      rw [pull_of_invalid hm _ hinvalid, hr]
      rfl
    by_cases hrecovered : (s.afterRecover m).outcome = .recovered
    · exact ⟨_, pull_of_recovered hm _ hrecovered, Nat.succ_le_succ (Nat.zero_le _)⟩
    · exact ⟨_, pull_of_other hm _ hrecovered hinvalid, Nat.succ_le_succ (Nat.zero_le _)⟩

/-- Settles O34: with the bound RX_LEN itself. -/
theorem pullEndsWithinBufferLength : Obligations.PullEndsWithinBufferLength :=
  fun s _ hm => exists_pull_of_rxLen_le hm s.rxLen.toNat s (Nat.le_refl _)

/-- A frame that PULL returns is what the host reads after a Recovered, in some round with the configuration that
PULL began with. -/
theorem exists_recovered_of_pull {m n : Nat} {s : State} {r : PullEnd} {f : List Byte} (hm : m < 16777216)
    (h : pull m n s = some r) (hf : r.frame = some f) :
    ∃ t : State, t.cfg = s.cfg ∧ (t.afterRecover m).outcome = .recovered ∧
      f = heldFrame (t.afterRecover m) := by
  induction n generalizing s r with
  | zero => cases h
  | succ n ih =>
    by_cases hrecovered : (s.afterRecover m).outcome = .recovered
    · obtain rfl := Option.some.inj ((pull_of_recovered hm n hrecovered).symm.trans h)
      exact ⟨s, rfl, hrecovered, (Option.some.inj hf).symm⟩
    by_cases hinvalid : (s.afterRecover m).outcome = .invalid
    · rw [pull_of_invalid hm n hinvalid, Option.map_eq_some_iff] at h
      obtain ⟨r', hr', rfl⟩ := h
      obtain ⟨t, hcfg, hround⟩ := ih hr' hf
      exact ⟨t, hcfg, hround⟩
    · obtain rfl := Option.some.inj ((pull_of_other hm n hrecovered hinvalid).symm.trans h)
      cases hf

/-- Settles O35: the frame read is the slice that the Recovered exit checked. -/
theorem pullReturnsOnlyCheckedFrames : Obligations.PullReturnsOnlyCheckedFrames := by
  intro s m n r f hm h hf
  obtain ⟨t, hcfg, hrecovered, hread⟩ := exists_recovered_of_pull hm h hf
  obtain ⟨i, len, received, k, d, hframe, hnear, hheld⟩ := heldFrame_of_recovered hrecovered
  obtain ⟨hlength, hfield, hsync, hdist⟩ := hframe.slice (hread.trans hheld)
  rw [hcfg] at hlength hfield hsync hdist hnear
  refine ⟨?_, hsync, hdist.trans_le hnear⟩
  rw [hlength, ← hfield, totalSize, headerLength]
  omega

end Sys2Proof.Machine
end

section
/-! The frame of every command (10_state.md section 2). -/

namespace Sys2Proof.Machine

/-- After a discard RXBUF holds RX and no other byte (log 3). -/
theorem State.read_discard_eq_none (s : State) {k a : Nat} (h : (s.discard k).rxLen.toNat ≤ a) :
    (s.discard k).rxbuf.read a = none := by
  rw [s.discard_rxLen_toNat] at h
  refine (Memory.read_ofBytes (s.rx.drop k) a).trans (List.getElem?_eq_none ?_)
  rwa [List.length_drop, s.rx_length]

/-- Settles O47: each command's ways to end, field by field; a stored byte is the only one that reads
differently. -/
theorem commandsWriteOnlyTheirColumns : Obligations.CommandsWriteOnlyTheirColumns := by
  intro i s t h
  cases i with
  | nop | cnt | recover =>
    obtain rfl := Host.Outcome.next.inj h
    rfl
  | find => obtain ⟨-, rfl⟩ | ⟨i, -, rfl⟩ := execFind_cases h <;> rfl
  | parse off => obtain ⟨e, -, rfl⟩ | ⟨p, -, rfl⟩ := execParse_cases h <;> rfl
  | extract => obtain ⟨-, rfl⟩ | ⟨-, rfl⟩ := execExtract_cases h <;> rfl
  | build =>
    obtain ⟨e, -, rfl⟩ | ⟨f, hb, rfl⟩ := execBuild_cases h
    · exact ⟨rfl, fun _ _ => rfl, fun _ => rfl⟩
    · have hlength := length_of_build_txp hb
      refine ⟨rfl, fun a ha => ?_, fun herr => absurd rfl herr⟩
      exact (Memory.read_writeBytes f s.txfrm 0 a).trans (if_neg (by omega))
  | rxpush b =>
    obtain ⟨-, rfl⟩ | ⟨-, rfl⟩ := execRxpush_cases h
    · exact ⟨rfl, fun _ _ => rfl, fun _ => rfl⟩
    · exact ⟨rfl, fun _ => Memory.read_write_of_ne, fun herr => absurd rfl herr⟩
  | rxaccept =>
    obtain rfl := Host.Outcome.next.inj h
    exact ⟨rfl, s.discard_rx _, fun _ => s.read_discard_eq_none⟩
  | rxdrop n =>
    obtain rfl := Host.Outcome.next.inj h
    exact ⟨rfl, s.discard_rx _, fun _ => s.read_discard_eq_none⟩
  | rxclr =>
    obtain rfl := Host.Outcome.next.inj h
    exact ⟨rfl, rfl, Memory.read_empty⟩
  | txpush b =>
    obtain ⟨-, rfl⟩ | ⟨-, rfl⟩ := execTxpush_cases h
    · exact ⟨rfl, fun _ _ => rfl, fun _ => rfl⟩
    · exact ⟨rfl, fun _ => Memory.read_write_of_ne, fun herr => absurd rfl herr⟩
  | txclr =>
    obtain rfl := Host.Outcome.next.inj h
    exact ⟨rfl, rfl, Memory.read_empty⟩

end Sys2Proof.Machine
end

section
/-! The bit strings of the channel (45_channel_fault_model.md R263 to R265): cutting bits into bytes, and what one
inserted or deleted bit does to the bytes behind it. -/

namespace Sys2Proof.Machine

@[simp] theorem bitsOfByte_length (b : Byte) : (bitsOfByte b).length = 8 := by
  rw [bitsOfByte, List.length_map, List.length_range]

@[simp] theorem bitsOf_length (bs : List Byte) : (bitsOf bs).length = 8 * bs.length := by
  induction bs with
  | nil => rfl
  | cons b bs ih =>
    rw [bitsOf, List.flatMap_cons, List.length_append, ← bitsOf, ih, bitsOfByte_length, List.length_cons]
    omega

theorem bitsOf_append (xs ys : List Byte) : bitsOf (xs ++ ys) = bitsOf xs ++ bitsOf ys :=
  List.flatMap_append

/-- Bits are packed up to the next byte boundary (R264). -/
theorem packBits_length (bits : List Bool) : (packBits bits).length = (bits.length + 7) / 8 := by
  match bits with
  | b7 :: b6 :: b5 :: b4 :: b3 :: b2 :: b1 :: b0 :: rest =>
    rw [packBits, List.length_cons, packBits_length rest]
    simp only [List.length_cons]
    omega
  | [] => rfl
  | [_] | [_, _] | [_, _, _] | [_, _, _, _] | [_, _, _, _, _] | [_, _, _, _, _, _]
  | [_, _, _, _, _, _, _] => simp [packBits]

/-- Bits are cut at the byte boundaries: the bytes from byte `n` on are the bits from bit 8*n on (R264). -/
theorem packBits_drop (bits : List Bool) (n : Nat) :
    (packBits bits).drop n = packBits (bits.drop (8 * n)) := by
  induction n generalizing bits with
  | zero => rfl
  | succ n ih =>
    match bits with
    | b7 :: b6 :: b5 :: b4 :: b3 :: b2 :: b1 :: b0 :: rest => exact ih rest
    | [] => simp [packBits]
    | [_] | [_, _] | [_, _, _] | [_, _, _, _] | [_, _, _, _, _] | [_, _, _, _, _, _]
    | [_, _, _, _, _, _, _] => simp [packBits, Nat.mul_succ]

/-- Without flips the channel is the slip alone (R262, R263). -/
theorem channel_nil_some (d : Slip) (x : List Byte) :
    channel [] (some d) x = packBits (slipBits (bitsOf x) d) := by
  simp only [channel, flipStage_nil]

/-- A window of the bytes packed from a bit string is read from the bit at which it starts. -/
theorem windowErr_packBits (bits : List Bool) (pat : List Byte) (i : Nat) :
    windowErr (packBits bits) pat i = windowErr (packBits (bits.drop (8 * i))) pat 0 := by
  rw [← packBits_drop, windowErr_drop, Nat.add_zero]

/-- The bits of the reference sync (00_scope.md R10). -/
theorem bitsOf_referenceSync : bitsOf [0xAA, 0xAA] =
    [true, false, true, false, true, false, true, false,
      true, false, true, false, true, false, true, false] := by decide

/-- The total of a window of two bytes at the front. -/
theorem windowErr_two_bytes (x y p q : Byte) (rest : List Byte) :
    windowErr (x :: y :: rest) [p, q] 0 = cnt x p + cnt y q := by
  rw [windowErr, List.drop_zero, List.zipWith_cons_cons, List.zipWith_cons_cons, List.zipWith_nil_right]
  rfl

/-- One bit late, every bit of the reference sync but the first meets its complement. -/
theorem windowErr_referenceSync_late (b : Bool) (rest : List Bool) :
    windowErr (packBits (b :: (bitsOf [0xAA, 0xAA] ++ rest))) [0xAA, 0xAA] 0 ∈ [15, 16] := by
  simp only [bitsOf_referenceSync, List.cons_append, packBits, windowErr_two_bytes]
  cases b <;> decide

/-- One bit early, every bit of the reference sync but the last meets its complement; the last one meets the bit
that follows, or the padding. -/
theorem windowErr_referenceSync_early (rest : List Bool) :
    windowErr (packBits ((bitsOf [0xAA, 0xAA]).drop 1 ++ rest)) [0xAA, 0xAA] 0 ∈ [15, 16] := by
  rw [bitsOf_referenceSync, List.drop_succ_cons, List.drop_zero]
  match rest with
  | [] => decide
  | b :: rest =>
    simp only [List.cons_append, List.nil_append, packBits, windowErr_two_bytes]
    cases b <;> decide

/-- A bit inserted among the bits ahead pushes the last of them, or the inserted one, behind their end. -/
theorem exists_drop_insertBit {ahead : List Bool} {pos : Nat} (h : pos ≤ ahead.length) (v : Bool)
    (rest : List Bool) :
    ∃ b, (slipBits (ahead ++ rest) (.insertBit pos v)).drop ahead.length = b :: rest := by
  have hahead : (ahead.take pos ++ v :: ahead.drop pos).length = ahead.length + 1 := by
    rw [List.length_append, List.length_cons, List.length_take, List.length_drop]
    omega
  have hlast : ((ahead.take pos ++ v :: ahead.drop pos).drop ahead.length).length = 1 := by
    rw [List.length_drop, hahead, Nat.add_sub_cancel_left]
  obtain ⟨b, hb⟩ := List.length_eq_one_iff.1 hlast
  refine ⟨b, ?_⟩
  calc (slipBits (ahead ++ rest) (.insertBit pos v)).drop ahead.length
      = ((ahead.take pos ++ v :: ahead.drop pos) ++ rest).drop ahead.length := by
        rw [slipBits, List.take_append_of_le_length h, List.drop_append_of_le_length h,
          List.append_assoc, List.cons_append]
    _ = b :: rest := by
        rw [List.drop_append_of_le_length (by omega), hb]
        rfl

/-- A bit deleted among the bits ahead pulls the first bit behind them to their end. -/
theorem drop_deleteBit {ahead : List Bool} {pos : Nat} (h : pos < ahead.length) (rest : List Bool) :
    (slipBits (ahead ++ rest) (.deleteBit pos)).drop ahead.length = rest.drop 1 := by
  have hahead : (ahead.eraseIdx pos).length + 1 = ahead.length := by
    rw [List.length_eraseIdx_of_lt h]
    omega
  rw [slipBits, List.eraseIdx_append_of_lt_length h, ← hahead, List.drop_length_add_append]

end Sys2Proof.Machine
end

section
/-! The statements of 45_channel_fault_model.md's family. -/

namespace Sys2Proof.Machine

/-- Settles O59: flips keep the length, and packing rounds one bit fewer or one more up to whole bytes. -/
theorem channelLengths : Obligations.ChannelLengths := by
  refine ⟨flipStage_length, flipStage_nil, fun flips x pos h => ?deletion, fun flips x pos v h => ?insertion⟩
  all_goals
    have hbits : (bitsOf (flipStage flips x)).length = 8 * x.length := by
      rw [bitsOf_length, flipStage_length]
    rw [channel, packBits_length]
  case deletion =>
    simp only [slipLegal, Bool.or_eq_true, decide_eq_true_eq] at h
    rw [slipBits, List.length_eraseIdx, hbits]
    split <;> omega
  case insertion =>
    have hpos : pos ≤ 8 * x.length := of_decide_eq_true h
    rw [slipBits, List.length_append, List.length_cons, List.length_take, List.length_drop, hbits]
    omega

/-- Settles O60: the sync's bits arrive one late or one early, and neighbouring bits of AA AA differ. -/
theorem oneBitSlipDestroysReferenceSync : Obligations.OneBitSlipDestroysReferenceSync := by
  have hsplit (pre post : List Byte) : bitsOf (pre ++ [0xAA, 0xAA] ++ post) =
      bitsOf pre ++ (bitsOf [0xAA, 0xAA] ++ bitsOf post) := by
    rw [bitsOf_append, bitsOf_append, List.append_assoc]
  refine ⟨fun pre post pos v h => ?inserted, fun pre post pos h => ?deleted⟩
  all_goals
    rw [← bitsOf_length] at h
    rw [channel_nil_some, windowErr_packBits, hsplit, ← bitsOf_length]
  case inserted =>
    obtain ⟨b, hb⟩ := exists_drop_insertBit h v (bitsOf [0xAA, 0xAA] ++ bitsOf post)
    rw [hb]
    exact windowErr_referenceSync_late b (bitsOf post)
  case deleted =>
    rw [drop_deleteBit h]
    exact windowErr_referenceSync_early (bitsOf post)

end Sys2Proof.Machine
end
